-- ==== Sys2Proof/Word.lean ====
section
/-!
DEFINITION. The word types of the GA412 model: the byte of the client port link, the two-byte fields and the
32-bit tick of the time base (spec/00_scope.md "Numbers and units"; spec/09 section 9.1).
-/

namespace Sys2Proof

/-- One byte of a frame (09 section 9.1). -/
abbrev Byte := BitVec 8

/-- A two-byte field: terms, wait limits, warn leads, slice lengths, the divisor (09 section 9.1), and the
16-bit epoch and link generation (R111, R146). -/
abbrev Half := BitVec 16

/-- A tick of the time base: a 32-bit number, all arithmetic on it modulo 2^32 (R97). -/
abbrev Tick := BitVec 32

end Sys2Proof
end

