-- ==== Sys2Proof/Syntax.lean ====
section
/-!
DEFINITION. The commands of the GA412: one constructor for each row of spec/opcode_table.json.
A request step names the port whose offer the lease engine takes (R152): the request's own bytes stand in that
port's request buffer, where a PUT put them. An expiry step takes the one owed expiry (R103), so it names nothing.
A transaction step carries the bytes the client shifts in.
-/

namespace Sys2Proof

/-- A client and its port: A, B, C, D are 0, 1, 2, 3 (00 "Names"). -/
abbrev Client := Fin 4

/-- The commands and events of spec/opcode_table.json. -/
inductive Instr where
  /-- OPEN_SESSION (R114, R115): the engine takes the OPEN_SESSION request that port `p` offers. -/
  | openSession (p : Client)
  /-- CLOSE_SESSION (R117). -/
  | closeSession (p : Client)
  /-- SET_THRESHOLD (R141). -/
  | setThreshold (p : Client)
  /-- ACQUIRE (R31 to R35, R58 to R60). -/
  | acquire (p : Client)
  /-- RENEW (R43, R44). -/
  | renew (p : Client)
  /-- RELEASE (R46, R47, R79). -/
  | release (p : Client)
  /-- DOWNGRADE (R49, R50). -/
  | downgrade (p : Client)
  /-- CANCEL (R55, R69). -/
  | cancel (p : Client)
  /-- QUERY_LEASE (R51, R52). -/
  | queryLease (p : Client)
  /-- QUERY_RESOURCE (R23, R24). -/
  | queryResource (p : Client)
  /-- QUERY_DEVICE (R110). -/
  | queryDevice (p : Client)
  /-- CONFIGURE_RESOURCE (R7). -/
  | configureResource (p : Client)
  /-- SET_ONLINE (R17). -/
  | setOnline (p : Client)
  /-- TAKE_OFFLINE (R18, R19). -/
  | takeOffline (p : Client)
  /-- CLEAR_FENCE (R21, R22). -/
  | clearFence (p : Client)
  /-- REVOKE (R85). -/
  | revoke (p : Client)
  /-- SET_TIMEBASE (R108). -/
  | setTimebase (p : Client)
  /-- SET_RIGHTS (R126). -/
  | setRights (p : Client)
  /-- EVICT_CLIENT (R123). -/
  | evictClient (p : Client)
  /-- UNKNOWN_KIND (R165): the engine takes an offered request whose kind byte is no known code. -/
  | unknownKind (p : Client)
  /-- DISCARDED_UNSERVED (R152, R162): the engine takes a request of a generation that is over. -/
  | discardedUnserved (p : Client)
  /-- TEARDOWN_CLAIM (R121): the engine takes the teardown claim that port `p` offers. -/
  | teardownClaim (p : Client)
  /-- WARN_EXPIRY (R41): the engine takes the owed expiry, whose purpose is WARN. -/
  | warnExpiry
  /-- EXPIRE_EXPIRY (R42). -/
  | expireExpiry
  /-- SLICE_EXPIRY (R90, R91). -/
  | sliceExpiry
  /-- GRACE_EXPIRY (R78). -/
  | graceExpiry
  /-- WAIT_EXPIRY (R67). -/
  | waitExpiry
  /-- SETTLE_EXPIRY (R12). -/
  | settleExpiry
  /-- EXPIRY_DELIVERY (R103): the deadline list delivers its reached head entry. -/
  | expiryDelivery
  /-- TICK (R95): the prescaler reaches the divisor and the tick counter advances. -/
  | tick
  /-- PUT (R150, R151): `frame` holds the bytes shifted in from position 1 on. -/
  | put (p : Client) (frame : List Byte)
  /-- TAKE_ANSWER (R154): the acknowledge flag and sequence of positions 1 and 2, and how many further positions
  the client clocks. -/
  | takeAnswer (p : Client) (flag seq : Byte) (more : Nat)
  /-- TAKE_NOTICE (R157): operands as for TAKE_ANSWER. -/
  | takeNotice (p : Client) (flag seq : Byte) (more : Nat)
  /-- STATUS (R148): `more` further positions are clocked after position 0. -/
  | status (p : Client) (more : Nat)
  /-- UNKNOWN_TRANSACTION (R148): the selecting byte, and how many further positions are clocked. -/
  | unknownTransaction (p : Client) (selector : Byte) (more : Nat)
  /-- CUT_TRANSACTION (R150, R158): CS_N rises after exactly the bytes `received` came in whole, from position 0 on. -/
  | cutTransaction (p : Client) (received : List Byte)
  /-- PLACE_ANSWER (R153): the oldest answer on its way from the engine reaches port `p`. -/
  | placeAnswer (p : Client)
  /-- PORT_RESET (R160): PCLR_N of port `p` is asserted. -/
  | portReset (p : Client)
  /-- PCLR_N_DEASSERTED (R161). -/
  | pclrDeasserted (p : Client)
  /-- DEVICE_RESET (R163 and every record's own rule): RESET_N is asserted, or power comes on. -/
  | deviceReset
  /-- RESET_N_DEASSERTED (R96, R163). -/
  | resetDeasserted
deriving DecidableEq, Repr

end Sys2Proof
end

