-- ==== Sys2Proof/Decode.lean ====
section
/-!
DEFINITION. spec/opcode_table.json gives no row any bits: the GA412 has no instruction words. A request's own
bytes are decoded by the port and the engine (Machine/Frames.lean, Machine/Operands.lean).
-/

namespace Sys2Proof

/-- The command a word of the opcode table spells: the table gives no row bits, so none. -/
def decodeTableWord (_nbits _w : Nat) : Option Instr := none

end Sys2Proof
end

