-- ==== Sys2Proof/Machine/Bytes.lean ====
section
/-!
DEFINITION. Bytes of frames: byte order (section 9.1), the byte a result list holds at an offset, and the frame
check CRC-8 (R151, section 9.3).
-/

namespace Sys2Proof.Machine

/-- A two-byte field from its bytes, most significant first (section 9.1). -/
def halfOf (hi lo : Byte) : Half := hi ++ lo

/-- The bytes of a two-byte field, most significant first. -/
def halfBytes (h : Half) : List Byte := [h.extractLsb' 8 8, h.extractLsb' 0 8]

/-- The bytes of a four-byte field, most significant first. -/
def tickBytes (t : Tick) : List Byte :=
  [t.extractLsb' 24 8, t.extractLsb' 16 8, t.extractLsb' 8 8, t.extractLsb' 0 8]

/-- A one-byte number. -/
def natByte (n : Nat) : Byte := BitVec.ofNat 8 n

/-- A yes/no byte (section 9.4). -/
def yesNo (b : Bool) : Byte := if b then 0x01 else 0x00

/-- One of the eight shift steps of the check register (section 9.3). -/
def crcShift (r : Byte) : Byte := if r.msb then (r <<< 1) ^^^ 0x07 else r <<< 1

/-- The check register after one more byte: exclusive-or it in, then eight shift steps. -/
def crcByte (r b : Byte) : Byte :=
  crcShift (crcShift (crcShift (crcShift (crcShift (crcShift (crcShift (crcShift (r ^^^ b))))))))

/-- CRC-8 with polynomial 0x07 and initial value 0x00 over the bytes in frame order (R151). -/
def crc8 (bytes : List Byte) : Byte := bytes.foldl crcByte 0x00

/-- A frame: the bytes and then their check byte. -/
def withCheck (bytes : List Byte) : List Byte := bytes ++ [crc8 bytes]

/-- The parameter byte at an offset (section 9.6). -/
def byteAt (bytes : List Byte) (offset : Nat) : Byte := bytes.getD offset 0

/-- The two-byte parameter at an offset. -/
def halfAt (bytes : List Byte) (offset : Nat) : Half := halfOf (byteAt bytes offset) (byteAt bytes (offset + 1))

/-- A set of clients as a byte: bit 0 for A up to bit 3 for D, bits 4 to 7 zero (section 9.1). -/
def clientSetByte (set : BitVec 4) : Byte := set.setWidth 8

/-- The set of the clients that satisfy a test, from one bit for each. -/
def clientSet (a b c d : Bool) : BitVec 4 :=
  BitVec.ofBool d ++ BitVec.ofBool c ++ BitVec.ofBool b ++ BitVec.ofBool a

end Sys2Proof.Machine
end

