-- ==== Sys2Proof/Config.lean ====
section
/-!
DEFINITION. What the part fixes: its capacities (spec/00_scope.md "Capacities").
The manual leaves no value of any command open, so this file holds no free value (see INVENTORY.md,
"What the manual leaves open").
-/

namespace Sys2Proof.Config

/-- Entries of one client's notice queue, reservations included (00 "Capacities"; R131). -/
def noticeEntries : Nat := 16

/-- Items of one port's request buffer, pending requests and unacknowledged answers together (R147). -/
def bufferItems : Nat := 4

/-- The largest parameter length a request frame may announce (R150). -/
def maxParams : Nat := 16

/-- The longest frame a client takes: an answer with 40 result bytes (09 section 9.3). -/
def maxFrame : Nat := 50

/-- The largest divisor SET_TIMEBASE accepts (R108). -/
def maxDivisor : Nat := 4096

/-- The divisor at device reset (R96). -/
def resetDivisor : Nat := 1000

end Sys2Proof.Config
end

