-- ==== Sys2Proof/Machine/State.lean ====
section
/-!
DEFINITION. The state of the GA412: every record, queue, counter, flag, line and pin the manual gives its six kinds
of block, and the queue of waiting commands; and the state right after device reset.
-/

namespace Sys2Proof.Machine

/-! ### Indexes and handles -/

/-- A resource, resource 0 to resource 11. -/
abbrev ResourceId := Fin 12

/-- A slot of the lease table (R25). -/
abbrev LeaseSlot := Fin 32

/-- A slot of the waiter pool (R53). -/
abbrev WaiterSlot := Fin 24

/-- A request's priority, 0 (least urgent) to 3 (00 "Terms"). -/
abbrev Urgency := Fin 4

/-- A handle L*slot*.*incarnation* or W*slot*.*incarnation* of a table of `n` slots (2.2, 3.1). -/
structure Handle (n : Nat) where
  incarnation : Byte
  slot : Fin n
deriving DecidableEq, Repr

abbrev LeaseHandle := Handle 32
abbrev WaiterHandle := Handle 24

/-! ### Enumerated field values -/

/-- EXCLUSIVE or SHARED (R26). -/
inductive Mode where
  | exclusive
  | shared
deriving DecidableEq, Repr

/-- The six states of a resource (R4, section 1.4). -/
inductive ResourceState where
  | offline
  | idle
  | held
  | settling
  | fenced
  | draining
deriving DecidableEq, Repr

/-- TERM or SLICED (R6). -/
inductive Policy where
  | term
  | sliced
deriving DecidableEq, Repr

/-- EXCLUSIVE_ONLY or SHARED_ALLOWED (R6). -/
inductive Sharing where
  | exclusiveOnly
  | sharedAllowed
deriving DecidableEq, Repr

/-- What a forced end of a lease does to the resource (R6). -/
inductive ForcedAction where
  | fence
  | settle
deriving DecidableEq, Repr

/-- Why a lease is recalled (R74, chapter 4). -/
inductive RecallReason where
  | expired
  | preempted
  | sliceEnd
  | revoked
  | offline
deriving DecidableEq, Repr

/-- ACTIVE, or RECALLING with the recall reason, which is present in RECALLING alone (R26). -/
inductive LeaseState where
  | active
  | recalling (reason : RecallReason)
deriving DecidableEq, Repr

/-- The interval a lease runs in (R26). -/
inductive Phase where
  | warn
  | expire
  | slice
  | grace
deriving DecidableEq, Repr

/-- How a lease ended (R9, R25). -/
inductive EndCause where
  | released
  | forced
  | tornDown
deriving DecidableEq, Repr

/-- How a waiter ended; GRANTED is kept with the handle of the lease the waiter became (R53). -/
inductive Outcome where
  | granted (lease : LeaseHandle)
  | timedOut
  | offline
  | cancelled
  | tornDown
deriving DecidableEq, Repr

/-- How a client's last session ended (R111, R116). -/
inductive SessionEnd where
  | closed
  | portReset
  | evicted
  | deviceReset
deriving DecidableEq, Repr

/-- Why a WAIT_ENDED notice was posted (R130). -/
inductive WaitEndReason where
  | timedOut
  | offline
deriving DecidableEq, Repr

/-! ### The time base (R95, R96) -/

/-- The divisor, the prescaler (REFCLK cycles within the current tick) and the 32-bit tick counter. -/
structure TimeBase where
  divisor : Nat
  prescaler : Nat
  counter : Tick
deriving DecidableEq, Repr

/-! ### The deadline list (R99) -/

/-- The record whose interval an entry times. -/
inductive Owner where
  | lease (slot : LeaseSlot)
  | waiter (slot : WaiterSlot)
  | resource (r : ResourceId)
deriving DecidableEq, Repr

/-- Which interval of its owner an entry ends. -/
inductive Purpose where
  | warn
  | expire
  | slice
  | grace
  | wait
  | settle
deriving DecidableEq, Repr

/-- One entry of the deadline list; a resource owner has no incarnation (R99). -/
structure Entry where
  owner : Owner
  incarnation : Option Byte
  purpose : Purpose
  due : Tick
deriving DecidableEq, Repr

/-- The ordered entries, head first, and the delivery place with the owed expiry, if any (section 5.2). -/
structure DeadlineList where
  entries : List Entry
  owed : Option Entry
deriving DecidableEq, Repr

/-! ### The resource table (R4, R6) -/

/-- The configuration record of a resource (R6). -/
structure ResourceConfig where
  sharing : Sharing
  maxShared : Nat
  policy : Policy
  defaultTerm : Half
  maxTerm : Half
  sliceTicks : Half
  sliceTrim : Fin 16
  warnLead : Half
  grace : Byte
  settle : Byte
  preemptible : Bool
  allowed : BitVec 4
  forcedAction : ForcedAction
deriving DecidableEq, Repr

/-- A resource record (R4). The holder set is kept by client: `holders[c]` is the lease of client `c`, for a
client appears in it at most once and every report lists it in ascending client number (R5, R30). -/
structure Resource where
  state : ResourceState
  fenceMark : Bool
  config : ResourceConfig
  holders : Vector (Option LeaseSlot) 4
  queue : List WaiterSlot
  starved : Bool
  settleDeadline : Option Tick
deriving DecidableEq, Repr

/-! ### The lease table (R25, R26) -/

/-- A lease. Its notice reservation is held exactly while it is ACTIVE (R26), so `state` says it. -/
structure Lease where
  resource : ResourceId
  holder : Client
  mode : Mode
  urgency : Urgency
  state : LeaseState
  phase : Phase
  deadline : Tick
  trim : Fin 16
deriving DecidableEq, Repr

/-- A slot of the lease table: its incarnation and previous end cause for life, a lease while in use (R25). -/
structure LeaseRecord where
  incarnation : Byte
  prevEnd : Option EndCause
  lease : Option Lease
deriving DecidableEq, Repr

/-! ### The waiter pool (R53, R54) -/

/-- A waiter. It always holds two notice reservations (R54), a constant that is not stored. -/
structure Waiter where
  resource : ResourceId
  client : Client
  mode : Mode
  urgency : Urgency
  term : Half
  deadline : Tick
deriving DecidableEq, Repr

/-- A slot of the waiter pool: its incarnation and previous outcome for life, a waiter while in use (R53). -/
structure WaiterRecord where
  incarnation : Byte
  prevOutcome : Option Outcome
  waiter : Option Waiter
deriving DecidableEq, Repr

/-! ### The session table (R111) -/

/-- A session context. -/
structure Session where
  isOpen : Bool
  epoch : Half
  lastEnd : SessionEnd
  admin : Bool
  threshold : Fin 8
  leaseCount : Nat
  waiterCount : Nat
deriving DecidableEq, Repr

/-! ### The gate unit (R15, R16) -/

/-- The grant line of a client for a resource. -/
structure Line where
  resource : ResourceId
  client : Client
deriving DecidableEq, Repr

/-- A command of the engine to the gate unit. -/
inductive LineCommand where
  | cut (line : Line)
  | set (line : Line)
deriving DecidableEq, Repr

/-- The 48 line states; the set commands the engine holds back until the last cut of the event (R16; none between
events); and, the model's own record of the outputs' order, the commands of the latest engine event as driven. -/
structure Gate where
  lines : Vector (Vector Bool 4) 12
  held : List Line
  driven : List LineCommand
deriving DecidableEq, Repr

/-! ### The notice unit (R128, R130) -/

/-- The fields of a notice, by kind (R130). -/
inductive NoticeBody where
  | recallNotice (lease : LeaseHandle) (resource : ResourceId) (reason : RecallReason) (grace : Byte) (lineCut : Bool)
  | granted (waiter : WaiterHandle) (lease : LeaseHandle) (resource : ResourceId) (mode : Mode) (deadline : Tick)
  | waitEnded (waiter : WaiterHandle) (resource : ResourceId) (reason : WaitEndReason)
  | warning (lease : LeaseHandle) (resource : ResourceId) (remaining : Half)
deriving DecidableEq, Repr

/-- A posted notice: its sequence number, posted tick, and kind with fields (the kind fixes the level). -/
structure Notice where
  seq : Byte
  posted : Tick
  body : NoticeBody
deriving DecidableEq, Repr

/-- One client's state at the notice unit (R128), with its attention line (R140). -/
structure NoticeBox where
  queue : List Notice
  reservations : Nat
  seq : Byte
  warnLost : Bool
  threshold : Fin 8
  attention : Bool
deriving DecidableEq, Repr

/-! ### The client ports (R146) -/

/-- A request frame a port has accepted: its bytes and the link generation stamped at acceptance (R146). -/
structure Request where
  kind : Byte
  tag : Byte
  length : Byte
  params : List Byte
  stamp : Half
deriving DecidableEq, Repr

/-- An item of the request buffer: a request, pending or in service (offered, or taken and not yet answered), or
an answer with its sequence number and frame bytes (R146, R147). -/
inductive Item where
  | request (q : Request) (inService : Bool)
  | answer (seq : Byte) (frame : List Byte)
deriving DecidableEq, Repr

/-- The one claim of a port that the engine may take next (R146, R152). -/
inductive Offer where
  | teardown
  | request (q : Request)
deriving DecidableEq, Repr

/-- The statuses of section 9.4. -/
inductive Status where
  | ok
  | queued
  | busy
  | fenced
  | offline
  | notAllowed
  | noSession
  | sessionOpen
  | notPermitted
  | unknownKind
  | tableFull
  | poolFull
  | noticeSpace
  | duplicate
  | badHandle
  | gone
  | tooLate
  | badParam
  | wrongState
  | alreadyGranted
  | lastAdmin
  | alreadyRecalling
deriving DecidableEq, Repr

/-- An answer the engine has handed to a port and that has not yet reached it (R153). -/
structure AnswerInFlight where
  stamp : Half
  tag : Byte
  kind : Byte
  status : Status
  tick : Tick
  results : List Byte
deriving DecidableEq, Repr

/-- A client port: the items of R146, the level of its PCLR_N input, the answers under way to it, a request whose
offer a port reset withdrew and which the engine may take all the same (R162), and the bytes its SDO shifted out in
its latest transaction (none: high-impedance, R164). -/
structure Port where
  buffer : List Item
  answerSeq : Byte
  generation : Half
  owedTeardowns : Nat
  linkError : Bool
  offer : Option Offer
  withdrawn : Option Request
  inFlight : List AnswerInFlight
  pclr : Bool
  shiftedOut : List Byte
deriving DecidableEq, Repr

/-! ### The whole machine -/

/-- The state of the part. `resetHeld` is the level of RESET_N (true: asserted); `pending` is the queue of commands
that wait for a step, first in, first out. -/
structure State where
  resetHeld : Bool
  timeBase : TimeBase
  deadlines : DeadlineList
  resources : Vector Resource 12
  leases : Vector LeaseRecord 32
  waiters : Vector WaiterRecord 24
  sessions : Vector Session 4
  gate : Gate
  notices : Vector NoticeBox 4
  ports : Vector Port 4
  pending : List Instr
deriving DecidableEq, Repr

/-- No command of the part ends in a fault: a command for which no claim stands leaves the state as it is. The type
is closed and has no constructor. -/
inductive Fault where
deriving DecidableEq, Repr

/-- Why a step may be refused. -/
inductive Refusal where
  /-- Raised by an arm of `exec` for a command with no meaning yet (none is left); safe: the model stops. -/
  | notModelled (mnemonic : String)
deriving DecidableEq, Repr

/-! ### Device reset values -/

/-- The defaults of the configuration record (R6). -/
def ResourceConfig.default : ResourceConfig where
  sharing := .exclusiveOnly
  maxShared := 1
  policy := .term
  defaultTerm := 1000
  maxTerm := 60000
  sliceTicks := 100
  sliceTrim := 0
  warnLead := 0
  grace := 10
  settle := 0
  preemptible := false
  allowed := 0b1111
  forcedAction := .fence

/-- A resource after device reset (R4). -/
def Resource.atReset : Resource where
  state := .offline
  fenceMark := false
  config := ResourceConfig.default
  holders := #v[none, none, none, none]
  queue := []
  starved := false
  settleDeadline := none

/-- A lease slot after device reset (R25). -/
def LeaseRecord.atReset : LeaseRecord := ⟨0, none, none⟩

/-- A waiter slot after device reset (R53). -/
def WaiterRecord.atReset : WaiterRecord := ⟨0, none, none⟩

/-- A session context after device reset; client A alone holds the admin right (R111, R125). -/
def Session.atReset (c : Client) : Session where
  isOpen := false
  epoch := 0
  lastEnd := .deviceReset
  admin := c == 0
  threshold := 0
  leaseCount := 0
  waiterCount := 0

/-- A client's notice state after device reset (R128). -/
def NoticeBox.atReset : NoticeBox := ⟨[], 0, 0, false, 0, false⟩

/-- A port after device reset (R146). The level of its PCLR_N input is the board's, not a reset value. -/
def Port.atReset (pclr : Bool) : Port where
  buffer := []
  answerSeq := 0
  generation := 0
  owedTeardowns := 0
  linkError := false
  offer := none
  withdrawn := none
  inFlight := []
  pclr := pclr
  shiftedOut := []

/-- The machine right after device reset: RESET_N deasserted again, every PCLR_N deasserted, nothing pending. -/
def State.reset : State where
  resetHeld := false
  timeBase := ⟨Config.resetDivisor, 0, 0⟩
  deadlines := ⟨[], none⟩
  resources := Vector.replicate 12 Resource.atReset
  leases := Vector.replicate 32 LeaseRecord.atReset
  waiters := Vector.replicate 24 WaiterRecord.atReset
  sessions := #v[Session.atReset 0, Session.atReset 1, Session.atReset 2, Session.atReset 3]
  gate := ⟨Vector.replicate 12 (Vector.replicate 4 false), [], []⟩
  notices := Vector.replicate 4 NoticeBox.atReset
  ports := Vector.replicate 4 (Port.atReset false)
  pending := []

end Sys2Proof.Machine
end

