-- ==== Sys2Proof/Machine/Frames.lean ====
section
/-!
DEFINITION. The codes, records and frames of chapter 9: request kinds with their parameter lengths, statuses,
enumerated values, the 14 bytes of the configuration record, and the answer and notice frames.
-/

namespace Sys2Proof.Machine

/-! ### Request kinds (section 9.4) -/

/-- The 19 request kinds. -/
inductive Kind where
  | openSession
  | closeSession
  | setThreshold
  | acquire
  | renew
  | release
  | downgrade
  | cancel
  | queryLease
  | queryResource
  | queryDevice
  | configureResource
  | setOnline
  | takeOffline
  | clearFence
  | revoke
  | setTimebase
  | setRights
  | evictClient
deriving DecidableEq, Repr

/-- The code of a request kind (section 9.4). -/
def Kind.code : Kind → Byte
  | .openSession => 0x01
  | .closeSession => 0x02
  | .setThreshold => 0x03
  | .acquire => 0x04
  | .renew => 0x05
  | .release => 0x06
  | .downgrade => 0x07
  | .cancel => 0x08
  | .queryLease => 0x09
  | .queryResource => 0x0A
  | .queryDevice => 0x0B
  | .configureResource => 0x10
  | .setOnline => 0x11
  | .takeOffline => 0x12
  | .clearFence => 0x13
  | .revoke => 0x14
  | .setTimebase => 0x15
  | .setRights => 0x16
  | .evictClient => 0x17

/-- The kind a kind byte names; none for every other value (R165). -/
def kindOfByte (b : Byte) : Option Kind :=
  match b.toNat with
  | 0x01 => some .openSession
  | 0x02 => some .closeSession
  | 0x03 => some .setThreshold
  | 0x04 => some .acquire
  | 0x05 => some .renew
  | 0x06 => some .release
  | 0x07 => some .downgrade
  | 0x08 => some .cancel
  | 0x09 => some .queryLease
  | 0x0A => some .queryResource
  | 0x0B => some .queryDevice
  | 0x10 => some .configureResource
  | 0x11 => some .setOnline
  | 0x12 => some .takeOffline
  | 0x13 => some .clearFence
  | 0x14 => some .revoke
  | 0x15 => some .setTimebase
  | 0x16 => some .setRights
  | 0x17 => some .evictClient
  | _ => none

/-- The parameter length n of a request kind (section 9.4). -/
def Kind.paramLength : Kind → Nat
  | .openSession | .closeSession | .queryDevice => 0
  | .setThreshold | .queryResource | .setOnline | .takeOffline | .clearFence | .evictClient => 1
  | .release | .downgrade | .cancel | .queryLease | .setTimebase | .setRights => 2
  | .revoke => 3
  | .renew => 4
  | .acquire => 7
  | .configureResource => 15

/-- The eight admin kinds (R113). -/
def Kind.isAdmin : Kind → Bool
  | .configureResource | .setOnline | .takeOffline | .clearFence => true
  | .revoke | .setTimebase | .setRights | .evictClient => true
  | _ => false

/-! ### Statuses and enumerated values (section 9.4) -/

/-- The code of a status. -/
def Status.code : Status → Byte
  | .ok => 0x00
  | .queued => 0x01
  | .busy => 0x02
  | .fenced => 0x03
  | .offline => 0x04
  | .notAllowed => 0x05
  | .noSession => 0x06
  | .sessionOpen => 0x07
  | .notPermitted => 0x08
  | .unknownKind => 0x09
  | .tableFull => 0x0A
  | .poolFull => 0x0B
  | .noticeSpace => 0x0C
  | .duplicate => 0x0D
  | .badHandle => 0x0E
  | .gone => 0x0F
  | .tooLate => 0x10
  | .badParam => 0x11
  | .wrongState => 0x12
  | .alreadyGranted => 0x13
  | .lastAdmin => 0x14
  | .alreadyRecalling => 0x15

/-- EXCLUSIVE 0x00, SHARED 0x01. -/
def Mode.code : Mode → Byte
  | .exclusive => 0x00
  | .shared => 0x01

/-- The mode a parameter byte names (R31, R166). -/
def modeOfByte (b : Byte) : Option Mode :=
  if b = 0x00 then some .exclusive else if b = 0x01 then some .shared else none

/-- The code of a resource state. -/
def ResourceState.code : ResourceState → Byte
  | .offline => 0x00
  | .idle => 0x01
  | .held => 0x02
  | .settling => 0x03
  | .fenced => 0x04
  | .draining => 0x05

/-- The code of a recall reason. -/
def RecallReason.code : RecallReason → Byte
  | .expired => 0x01
  | .preempted => 0x02
  | .sliceEnd => 0x03
  | .revoked => 0x04
  | .offline => 0x05

/-- Whether a lease state is RECALLING: its code is 0x01 then, 0x00 for ACTIVE. -/
def LeaseState.isRecalling : LeaseState → Bool
  | .active => false
  | .recalling _ => true

/-- The recall reason byte of QUERY_LEASE: 0x00 while ACTIVE (R168). -/
def LeaseState.reasonCode : LeaseState → Byte
  | .active => 0x00
  | .recalling reason => reason.code

/-- The code of a phase. -/
def Phase.code : Phase → Byte
  | .warn => 0x00
  | .expire => 0x01
  | .slice => 0x02
  | .grace => 0x03

/-- The purpose of the one deadline entry a lease in this phase owns (R26). -/
def Phase.purpose : Phase → Purpose
  | .warn => .warn
  | .expire => .expire
  | .slice => .slice
  | .grace => .grace

/-- The code of a lease end cause. -/
def EndCause.code : EndCause → Byte
  | .released => 0x01
  | .forced => 0x02
  | .tornDown => 0x03

/-- RELEASED is the one clean end; FORCED and TORN_DOWN are forced ends (R9). -/
def EndCause.isForced : EndCause → Bool
  | .released => false
  | .forced => true
  | .tornDown => true

/-- The code of a session's last end cause. -/
def SessionEnd.code : SessionEnd → Byte
  | .closed => 0x01
  | .portReset => 0x02
  | .evicted => 0x03
  | .deviceReset => 0x04

/-- The code of a WAIT_ENDED reason. -/
def WaitEndReason.code : WaitEndReason → Byte
  | .timedOut => 0x01
  | .offline => 0x02

/-- The bytes of a handle: the incarnation first, the slot second (section 9.1). -/
def Handle.bytes {n : Nat} (h : Handle n) : List Byte := [h.incarnation, natByte h.slot.val]

/-! ### The configuration record (section 9.5) -/

/-- The modes byte: sharing, policy, preemptible and forced_action in bits 0 to 3, zeros above. -/
def ResourceConfig.modesByte (c : ResourceConfig) : Byte :=
  (BitVec.ofBool (decide (c.forcedAction = .settle)) ++ BitVec.ofBool c.preemptible
    ++ BitVec.ofBool (decide (c.policy = .sliced)) ++ BitVec.ofBool (decide (c.sharing = .sharedAllowed))).setWidth 8

/-- The 14 bytes of the record. -/
def ResourceConfig.bytes (c : ResourceConfig) : List Byte :=
  [c.modesByte, natByte c.maxShared] ++ halfBytes c.defaultTerm ++ halfBytes c.maxTerm ++ halfBytes c.sliceTicks
    ++ [natByte c.sliceTrim.val] ++ halfBytes c.warnLead ++ [c.grace, c.settle, clientSetByte c.allowed]

/-- Every field is within its range (R6). -/
def ResourceConfig.inRange (c : ResourceConfig) : Bool :=
  decide (1 ≤ c.maxShared) && decide (c.maxShared ≤ 4)
    && (decide (c.sharing = .sharedAllowed) || decide (c.maxShared = 1))
    && decide (1 ≤ c.defaultTerm.toNat) && decide (c.defaultTerm.toNat ≤ c.maxTerm.toNat)
    && decide (1 ≤ c.sliceTicks.toNat)

/-- The record that 14 parameter bytes from an offset on spell, or none where a byte is outside its field's codes or a
field outside its range (R6, R7 check 2, R166). -/
def configAt (params : List Byte) (offset : Nat) : Option ResourceConfig :=
  let modes := byteAt params offset
  let trim := byteAt params (offset + 8)
  let allowed := byteAt params (offset + 13)
  if modes.toNat < 16 ∧ allowed.toNat < 16 then
    if h : trim.toNat < 16 then
      let c : ResourceConfig :=
        { sharing := if modes.getLsbD 0 then .sharedAllowed else .exclusiveOnly
          maxShared := (byteAt params (offset + 1)).toNat
          policy := if modes.getLsbD 1 then .sliced else .term
          defaultTerm := halfAt params (offset + 2)
          maxTerm := halfAt params (offset + 4)
          sliceTicks := halfAt params (offset + 6)
          sliceTrim := ⟨trim.toNat, h⟩
          warnLead := halfAt params (offset + 9)
          grace := byteAt params (offset + 11)
          settle := byteAt params (offset + 12)
          preemptible := modes.getLsbD 2
          allowed := allowed.setWidth 4
          forcedAction := if modes.getLsbD 3 then .settle else .fence }
      if c.inRange then some c else none
    else none
  else none

/-! ### Notices (R130, section 9.8) and frames (section 9.3) -/

/-- The code of a notice's kind. -/
def NoticeBody.kindCode : NoticeBody → Byte
  | .recallNotice .. => 0x01
  | .granted .. => 0x02
  | .waitEnded .. => 0x03
  | .warning .. => 0x04

/-- The level of a notice's kind (R130). -/
def NoticeBody.level : NoticeBody → Nat
  | .recallNotice .. => 6
  | .granted .. => 5
  | .waitEnded .. => 4
  | .warning .. => 3

/-- The field bytes of a notice (section 9.8). -/
def NoticeBody.fields : NoticeBody → List Byte
  | .recallNotice lease r reason grace cut => lease.bytes ++ [natByte r.val, reason.code, grace, yesNo cut]
  | .granted waiter lease r mode deadline =>
    waiter.bytes ++ lease.bytes ++ [natByte r.val, mode.code] ++ tickBytes deadline
  | .waitEnded waiter r reason => waiter.bytes ++ [natByte r.val, reason.code]
  | .warning lease r remaining => lease.bytes ++ [natByte r.val] ++ halfBytes remaining

/-- The notice frame (R157). -/
def Notice.frame (n : Notice) : List Byte :=
  withCheck ([n.seq, n.body.kindCode, natByte n.body.level] ++ tickBytes n.posted
    ++ [natByte n.body.fields.length] ++ n.body.fields)

/-- The answer frame with the sequence number it takes when it is placed (R153). -/
def AnswerInFlight.frame (a : AnswerInFlight) (seq : Byte) : List Byte :=
  withCheck ([seq, a.tag, a.kind, a.status.code] ++ tickBytes a.tick ++ [natByte a.results.length] ++ a.results)

end Sys2Proof.Machine
end

