-- ==== Sys2Proof/Machine/Flags.lean ====
section
/-!
DEFINITION. The part's flags: when the attention line is asserted (R140) and the status byte of a port (R142, R149).
-/

namespace Sys2Proof.Machine

/-- Some queued notice has a level above the threshold (R140). -/
def attentionDue (queue : List Notice) (threshold : Fin 8) : Bool :=
  queue.any fun n => decide (threshold.val < n.body.level)

/-- ATTN_N of client `c` is driven at its active level: the attention line is asserted and RESET_N is not held (R163,
R164). -/
def State.attnAsserted (s : State) (c : Client) : Bool := !s.resetHeld && (s.notices[c]).attention

/-- ANSWER_READY: the answer queue, the run of answers at the front of the buffer, is not empty (R146, R149). -/
def Port.answerReady (x : Port) : Bool :=
  match x.buffer with
  | .answer _ _ :: _ => true
  | _ => false

/-- FULL: the request buffer holds 4 items (R149). -/
def Port.full (x : Port) : Bool := decide (Config.bufferItems ≤ x.buffer.length)

/-- The status byte, bit 0 ANSWER_READY up to bit 6 ATTENTION, bit 7 always 0 (R149). -/
def statusByte (x : Port) (session : Session) (b : NoticeBox) : Byte :=
  (BitVec.ofBool b.attention ++ BitVec.ofBool b.warnLost ++ BitVec.ofBool session.isOpen
    ++ BitVec.ofBool x.linkError ++ BitVec.ofBool x.full ++ BitVec.ofBool (!b.queue.isEmpty)
    ++ BitVec.ofBool x.answerReady).setWidth 8

end Sys2Proof.Machine
end

