-- ==== Sys2Proof/Machine/Ops.lean ====
section
/-!
DEFINITION. The named operations over the part's tables and blocks: reading and writing one record, tick arithmetic
(R97), the deadline list (R99 to R102), the gate unit (R15, R16), the notice unit (R129 to R145), and the steps on
leases and waiters that several commands share (R26, R27, R36 to R39, R54 to R57, R89).
-/

namespace Sys2Proof.Machine

/-! ### Reading and writing one record -/

/-- The record of resource `r`. -/
def State.resource (s : State) (r : ResourceId) : Resource := s.resources[r]

/-- Write the record of resource `r`. -/
def State.setResource (s : State) (r : ResourceId) (x : Resource) : State :=
  { s with resources := s.resources.set r x }

/-- The record of lease slot `i`. -/
def State.leaseRecord (s : State) (i : LeaseSlot) : LeaseRecord := s.leases[i]

/-- Write the record of lease slot `i`. -/
def State.setLeaseRecord (s : State) (i : LeaseSlot) (x : LeaseRecord) : State :=
  { s with leases := s.leases.set i x }

/-- The lease in slot `i`, none in a free slot. -/
def State.lease (s : State) (i : LeaseSlot) : Option Lease := (s.leaseRecord i).lease

/-- Write the lease of the in-use slot `i`, keeping the slot's incarnation and previous end cause. -/
def State.setLease (s : State) (i : LeaseSlot) (l : Lease) : State :=
  s.setLeaseRecord i { s.leaseRecord i with lease := some l }

/-- The record of waiter slot `i`. -/
def State.waiterRecord (s : State) (i : WaiterSlot) : WaiterRecord := s.waiters[i]

/-- Write the record of waiter slot `i`. -/
def State.setWaiterRecord (s : State) (i : WaiterSlot) (x : WaiterRecord) : State :=
  { s with waiters := s.waiters.set i x }

/-- The waiter in slot `i`, none in a free slot. -/
def State.waiter (s : State) (i : WaiterSlot) : Option Waiter := (s.waiterRecord i).waiter

/-- The session context of client `c`. -/
def State.session (s : State) (c : Client) : Session := s.sessions[c]

/-- Write the session context of client `c`. -/
def State.setSession (s : State) (c : Client) (x : Session) : State :=
  { s with sessions := s.sessions.set c x }

/-- The notice unit's state of client `c`. -/
def State.box (s : State) (c : Client) : NoticeBox := s.notices[c]

/-- Write the notice unit's state of client `c`. -/
def State.setBox (s : State) (c : Client) (x : NoticeBox) : State :=
  { s with notices := s.notices.set c x }

/-- The port of client `p`. -/
def State.port (s : State) (p : Client) : Port := s.ports[p]

/-- Write the port of client `p`. -/
def State.setPort (s : State) (p : Client) (x : Port) : State :=
  { s with ports := s.ports.set p x }

/-- The state of the grant line of client `c` for resource `r`. -/
def State.line (s : State) (r : ResourceId) (c : Client) : Bool := s.gate.lines[r][c]

/-- Write the deadline list. -/
def State.setDeadlines (s : State) (d : DeadlineList) : State := { s with deadlines := d }

/-- Write the gate unit. -/
def State.setGate (s : State) (g : Gate) : State := { s with gate := g }

/-- Write the time base. -/
def State.setTimeBase (s : State) (t : TimeBase) : State := { s with timeBase := t }

/-- The tick counter; in an engine event, the event's taken tick (R1). -/
def State.now (s : State) : Tick := s.timeBase.counter

/-- The four clients in ascending number. -/
def clients : List Client := [0, 1, 2, 3]

/-- The twelve resources in ascending index. -/
def resourceIds : List ResourceId := [0, 1, 2, 3, 4, 5, 6, 7, 8, 9, 10, 11]

/-- The lease slots in ascending number. -/
def leaseSlots : List LeaseSlot := List.finRange 32

/-- The waiter slots in ascending number. -/
def waiterSlots : List WaiterSlot := List.finRange 24

/-- The lowest-numbered free lease slot (R25). -/
def State.freeLeaseSlot (s : State) : Option LeaseSlot := leaseSlots.find? fun i => (s.lease i).isNone

/-- The lowest-numbered free waiter slot (R53). -/
def State.freeWaiterSlot (s : State) : Option WaiterSlot := waiterSlots.find? fun i => (s.waiter i).isNone

/-- How many lease slots are free (R25). -/
def State.freeLeaseCount (s : State) : Nat := leaseSlots.countP fun i => (s.lease i).isNone

/-- How many waiter slots are free (R53). -/
def State.freeWaiterCount (s : State) : Nat := waiterSlots.countP fun i => (s.waiter i).isNone

/-- The set of the clients that hold the admin right (R110, R126). -/
def State.admins (s : State) : BitVec 4 :=
  clientSet (s.session 0).admin (s.session 1).admin (s.session 2).admin (s.session 3).admin

/-- The set of the clients whose session is OPEN (R110). -/
def State.openSessions (s : State) : BitVec 4 :=
  clientSet (s.session 0).isOpen (s.session 1).isOpen (s.session 2).isOpen (s.session 3).isOpen

/-! ### Tick arithmetic (R97) -/

/-- Due tick `due` counts as reached at counter value `now`. -/
def reached (now due : Tick) : Bool := decide ((now - due).toNat < 2 ^ 31)

/-- The ticks remaining to a due tick: 0 once it is reached (R24, R52, R97). -/
def remaining (now due : Tick) : Tick := if reached now due then 0 else due - now

/-- An entry due at `a` stands ahead of one due at `b` (R100). -/
def dueAhead (a b : Tick) : Bool := decide (2 ^ 31 ≤ (a - b).toNat)

/-! ### The deadline list -/

/-- Insert an entry by due tick, behind every entry with the same due tick (R100). -/
def insertEntry (e : Entry) : List Entry → List Entry
  | [] => [e]
  | x :: rest => if dueAhead e.due x.due then e :: x :: rest else x :: insertEntry e rest

/-- The entries without those of an owner. -/
def dropOwner (o : Owner) (entries : List Entry) : List Entry := entries.filter fun e => !decide (e.owner = o)

/-- An arm command: the owner's entry, if any, is removed and the new one inserted (R101). -/
def State.arm (s : State) (e : Entry) : State :=
  s.setDeadlines { s.deadlines with entries := insertEntry e (dropOwner e.owner s.deadlines.entries) }

/-- A cancel command: the owner's entry is removed if the list has one; an owed expiry stays owed (R102). -/
def State.disarm (s : State) (o : Owner) : State :=
  s.setDeadlines { s.deadlines with entries := dropOwner o s.deadlines.entries }

/-- Arm the deadline entry of the lease in slot `i` as its phase and deadline say (R26). -/
def State.armLease (s : State) (i : LeaseSlot) (l : Lease) : State :=
  s.arm ⟨.lease i, some (s.leaseRecord i).incarnation, l.phase.purpose, l.deadline⟩

/-- The list's delivery: its reached head entry leaves the list and is owed, when nothing is owed (R103). -/
def DeadlineList.deliver (d : DeadlineList) (now : Tick) : DeadlineList :=
  match d.owed, d.entries with
  | none, e :: rest => if reached now e.due then ⟨rest, some e⟩ else d
  | _, _ => d

/-- The list's delivery test (R103). -/
def State.deliver (s : State) : State := s.setDeadlines (s.deadlines.deliver s.now)

/-- The delivery test for the arm and cancel commands of an event that began in `s` and has come to `t`: it is made
where they have changed the list's head (R101, R103; assumption log 4). -/
def State.testHead (s t : State) : State :=
  if t.deadlines.entries.head? = s.deadlines.entries.head? then t else t.deliver

/-! ### The gate unit -/

/-- Write one line state. -/
def setLine (lines : Vector (Vector Bool 4) 12) (l : Line) (v : Bool) : Vector (Vector Bool 4) 12 :=
  lines.set l.resource (lines[l.resource].set l.client v)

/-- The engine's cut command, driven at once; a held-back set of the same line is dropped with it. -/
def State.cutLine (s : State) (l : Line) : State :=
  s.setGate { lines := setLine s.gate.lines l false
              held := s.gate.held.filter fun x => !decide (x = l)
              driven := s.gate.driven ++ [.cut l] }

/-- The engine's set command, held back until the last cut of the event (R16). -/
def State.holdSet (s : State) (l : Line) : State := s.setGate { s.gate with held := s.gate.held ++ [l] }

/-- An engine event begins: no line has been driven in it yet. -/
def State.beginEvent (s : State) : State := s.setGate { s.gate with held := [], driven := [] }

/-- The engine event ends: the held-back sets are driven in the order of the grants (R16). -/
def State.endEvent (s : State) : State :=
  s.setGate { lines := s.gate.held.foldl (fun lines l => setLine lines l true) s.gate.lines
              held := []
              driven := s.gate.driven ++ s.gate.held.map .set }

/-! ### The notice unit -/

/-- Re-evaluate the attention line (R140). -/
def NoticeBox.settled (b : NoticeBox) : NoticeBox := { b with attention := attentionDue b.queue b.threshold }

/-- Queued notices plus reservations (R131). -/
def NoticeBox.used (b : NoticeBox) : Nat := b.queue.length + b.reservations

/-- The reserve command (R131). -/
def NoticeBox.reserve (b : NoticeBox) (n : Nat) : NoticeBox := { b with reservations := b.reservations + n }

/-- The return command (R131). -/
def NoticeBox.giveBack (b : NoticeBox) (n : Nat) : NoticeBox := { b with reservations := b.reservations - n }

/-- A notice joins the tail with the next sequence number (R129). -/
def NoticeBox.append (b : NoticeBox) (tick : Tick) (body : NoticeBody) : NoticeBox :=
  NoticeBox.settled { b with queue := b.queue ++ [⟨b.seq, tick, body⟩], seq := b.seq + 1 }

/-- A reserved post: it consumes one reservation (R129, R133). -/
def NoticeBox.post (b : NoticeBox) (tick : Tick) (body : NoticeBody) : NoticeBox :=
  (b.giveBack 1).append tick body

/-- The unreserved post of a WARNING: dropped, with WARN_LOST set, when the box is full (R134). -/
def NoticeBox.warn (b : NoticeBox) (tick : Tick) (body : NoticeBody) : NoticeBox :=
  if b.used < Config.noticeEntries then b.append tick body else { b with warnLost := true }

/-- The empty command of a session end (R143). -/
def NoticeBox.empty (b : NoticeBox) : NoticeBox :=
  NoticeBox.settled { b with queue := [], reservations := 0, warnLost := false }

/-- The threshold copy takes a new value (R141). -/
def NoticeBox.setThreshold (b : NoticeBox) (t : Fin 8) : NoticeBox := NoticeBox.settled { b with threshold := t }

/-- OPEN_SESSION restarts the notice sequence and sets the threshold copy to 0 (R115, R145). -/
def NoticeBox.restart (b : NoticeBox) : NoticeBox := ({ b with seq := 0 } : NoticeBox).setThreshold 0

/-- An acknowledge: it removes the head notice when its sequence matches, and clears WARN_LOST then (R137). -/
def NoticeBox.acknowledge (b : NoticeBox) (seq : Byte) : NoticeBox :=
  match b.queue with
  | n :: rest => if n.seq = seq then NoticeBox.settled { b with queue := rest, warnLost := false } else b
  | [] => b

/-- Free entries: 16 minus queued notices minus reservations (R132). -/
def NoticeBox.free (b : NoticeBox) : Nat := Config.noticeEntries - b.used

/-! ### Session counts (R111) -/

/-- The lease count rises by one. -/
def Session.gainLease (x : Session) : Session := { x with leaseCount := x.leaseCount + 1 }

/-- The lease count falls by one. -/
def Session.loseLease (x : Session) : Session := { x with leaseCount := x.leaseCount - 1 }

/-- The waiter count rises by one. -/
def Session.gainWaiter (x : Session) : Session := { x with waiterCount := x.waiterCount + 1 }

/-- The waiter count falls by one. -/
def Session.loseWaiter (x : Session) : Session := { x with waiterCount := x.waiterCount - 1 }

/-! ### Intervals of a lease (R36 to R39, R89) -/

/-- The next slice: its accumulator and its length in ticks, one more when sixteen sixteenths have gathered (R89). -/
def nextSlice (c : ResourceConfig) (acc : Fin 16) : Fin 16 × Tick :=
  if 16 ≤ acc.val + c.sliceTrim.val then (acc + c.sliceTrim, c.sliceTicks.setWidth 32 + 1)
  else (acc + c.sliceTrim, c.sliceTicks.setWidth 32)

/-- The term in use: 0 means the resource's default_term (R36). -/
def ResourceConfig.resolveTerm (c : ResourceConfig) (term : Half) : Half := if term = 0 then c.defaultTerm else term

/-- What a grant or a renewal fixes: phase, deadline, trim accumulator, and the deadline and term results of R40. -/
structure Interval where
  phase : Phase
  deadline : Tick
  trim : Fin 16
  ends : Tick
  length : Half
deriving DecidableEq, Repr

/-- The term of a TERM lease counted from `now`, with a warning when one is due (R36 to R38). -/
def termInterval (c : ResourceConfig) (now : Tick) (term : Half) : Interval :=
  let t := c.resolveTerm term
  let ends := now + t.setWidth 32
  if 0 < c.warnLead.toNat ∧ c.warnLead.toNat < t.toNat then ⟨.warn, ends - c.warnLead.setWidth 32, 0, ends, t⟩
  else ⟨.expire, ends, 0, ends, t⟩

/-- The first slice of a SLICED lease granted at `now` (R39). -/
def sliceInterval (c : ResourceConfig) (now : Tick) : Interval :=
  let next := nextSlice c 0
  ⟨.slice, now + next.2, next.1, now + next.2, c.sliceTicks⟩

/-- The first interval of a lease granted at `now` with the requested term (R38, R39). -/
def grantInterval (c : ResourceConfig) (now : Tick) (term : Half) : Interval :=
  match c.policy with
  | .term => termInterval c now term
  | .sliced => sliceInterval c now

/-! ### Holders (R5, R32, R62) -/

/-- The clients that hold a lease on the resource, in ascending client number, each with its slot. -/
def Resource.holderList (x : Resource) : List (Client × LeaseSlot) :=
  clients.filterMap fun c => x.holders[c].map fun i => (c, i)

/-- The holder count. -/
def Resource.holderCount (x : Resource) : Nat := x.holderList.length

/-- Every lease in the holder set is SHARED, ACTIVE or RECALLING alike. -/
def State.allShared (s : State) (r : ResourceId) : Bool :=
  (s.resource r).holderList.all fun h => (s.lease h.2).all fun l => decide (l.mode = .shared)

/-- Compatibility of a grant with the holder set: EXCLUSIVE needs it empty, SHARED needs it all SHARED (R62). -/
def State.compatible (s : State) (r : ResourceId) (m : Mode) : Bool :=
  match m with
  | .exclusive => decide ((s.resource r).holderCount = 0)
  | .shared => s.allShared r

/-- The holder count is below max_shared (R62). -/
def State.hasRoom (s : State) (r : ResourceId) : Bool :=
  decide ((s.resource r).holderCount < (s.resource r).config.maxShared)

/-- The lease `l` in slot `i` stands in its resource's holder set. -/
def State.stands (s : State) (i : LeaseSlot) (l : Lease) : Bool :=
  decide ((s.resource l.resource).holders[l.holder] = some i)

/-! ### The beginning of a lease (R8, R26, R35, R63) -/

/-- Lease slot `i` takes a new lease: the record is filled, its entry armed, the lease joins the holder set, the line's
set is commanded, an IDLE resource enters HELD, and the client's lease count rises. -/
def State.beginLease (s : State) (i : LeaseSlot) (r : ResourceId) (c : Client) (m : Mode) (u : Urgency)
    (iv : Interval) : State :=
  let l : Lease := ⟨r, c, m, u, .active, iv.phase, iv.deadline, iv.trim⟩
  let s := (s.setLease i l).armLease i l
  let x := s.resource r
  let x := { x with holders := x.holders.set c (some i)
                    state := if x.state = .idle then .held else x.state }
  let s := (s.setResource r x).holdSet ⟨r, c⟩
  s.setSession c (s.session c).gainLease

/-- Free lease slot `i` with end cause `cause` (R27): its entry is cancelled, the reservation of an ACTIVE lease
returned, the end cause recorded, the incarnation advanced and the holder's lease count lowered. The freeing is the
last step of a lease's end: a lease that still stands in a holder set is not freed. -/
def State.freeLease (s : State) (i : LeaseSlot) (cause : EndCause) : State :=
  match s.lease i with
  | none => s
  | some l =>
    if s.stands i l then s
    else
      let s := s.disarm (.lease i)
      let s := if l.state = .active then s.setBox l.holder ((s.box l.holder).giveBack 1) else s
      let s := s.setLeaseRecord i ⟨(s.leaseRecord i).incarnation + 1, some cause, none⟩
      s.setSession l.holder (s.session l.holder).loseLease

/-! ### Waiters (R54, R56, R57, R59) -/

/-- How many waiters stand ahead of a new one of urgency `u`: it goes directly after the last waiter whose urgency is
equal to or higher than its own, at the head if there is none (R57). -/
def State.enqueuePosition (s : State) (queue : List WaiterSlot) (u : Urgency) : Nat :=
  queue.length - (queue.reverse.takeWhile fun i => (s.waiter i).any fun w => decide (w.urgency < u)).length

/-- Waiter slot `i` takes a new waiter: two entries are reserved, WAIT is armed, the waiter joins its resource's queue
by urgency, and the client's waiter count rises (R59, steps 1 to 5). -/
def State.enqueue (s : State) (i : WaiterSlot) (w : Waiter) : State :=
  let s := s.setWaiterRecord i { s.waiterRecord i with waiter := some w }
  let s := s.setBox w.client ((s.box w.client).reserve 2)
  let s := s.arm ⟨.waiter i, some (s.waiterRecord i).incarnation, .wait, w.deadline⟩
  let x := s.resource w.resource
  let s := s.setResource w.resource
    { x with queue := x.queue.insertIdx (s.enqueuePosition x.queue w.urgency) i }
  s.setSession w.client (s.session w.client).gainWaiter

/-- Free waiter slot `i` with outcome `o` (R56, steps 1, 2 and 4 to 6): it leaves its queue, its WAIT entry is
cancelled, the outcome recorded, the incarnation advanced and the client's waiter count lowered. -/
def State.freeWaiter (s : State) (i : WaiterSlot) (o : Outcome) : State :=
  match s.waiter i with
  | none => s
  | some w =>
    let x := s.resource w.resource
    let s := s.setResource w.resource { x with queue := x.queue.filter fun j => !decide (j = i) }
    let s := s.disarm (.waiter i)
    let s := s.setWaiterRecord i ⟨(s.waiterRecord i).incarnation + 1, some o, none⟩
    s.setSession w.client (s.session w.client).loseWaiter

/-- The waiter's resource queue has it at the head. -/
def State.isHead (s : State) (r : ResourceId) (i : WaiterSlot) : Bool := decide ((s.resource r).queue.head? = some i)

/-- Post a reserved notice to a client at the taken tick. -/
def State.post (s : State) (c : Client) (body : NoticeBody) : State := s.setBox c ((s.box c).post s.now body)

/-- Return reservations to a client. -/
def State.giveBack (s : State) (c : Client) (n : Nat) : State := s.setBox c ((s.box c).giveBack n)

end Sys2Proof.Machine
end

