-- ==== Sys2Proof/Machine/Engine.lean ====
section
/-!
DEFINITION. What one engine event sets off within itself (R1): grant passes, preemption checks, recalls, lease ends,
the passes of starved resources and the removal of waiters. Each is one item of a work list; doing an item changes the
state and puts the items it sets off in front of the rest, so every effect of an item is finished before the next item
of the list (R82, R104, R117). `runWork` does the list, on fuel; every item a grant pass sets off is paid for by a
waiter it granted, so the fuel of `engineFuel` is never used up (assumption log 8).
-/

namespace Sys2Proof.Machine

/-- One thing an engine event has still to do. -/
inductive Work where
  /-- A grant pass for a resource (R62 to R64). -/
  | pass (r : ResourceId)
  /-- The preemption check for the head of a resource's queue (R81, R82). -/
  | check (r : ResourceId)
  /-- The recall of the lease in a slot, with a grace in ticks (R74, R75). -/
  | recallLease (slot : LeaseSlot) (reason : RecallReason) (grace : Byte)
  /-- The end of the lease in a slot (R9 to R11, R27, R47, R65, R78, R79, R120). -/
  | endLease (slot : LeaseSlot) (cause : EndCause)
  /-- The freeing of a lease slot, the last step of the lease's end (R27). -/
  | freeSlot (slot : LeaseSlot) (cause : EndCause)
  /-- The passes of the starved resources from a resource index on (R65). -/
  | starvedFrom (index : Nat)
  /-- The end of a client's lease on a resource, if it holds one (R117, R120). -/
  | endHolding (r : ResourceId) (c : Client) (cause : EndCause)
  /-- The removal of a client's waiter from a resource's queue, if it has one (R73). -/
  | removeWaiting (r : ResourceId) (c : Client) (outcome : Outcome)
deriving DecidableEq, Repr

/-! ### The grant pass -/

/-- Grant one waiter (R63): lease slot `i` takes its lease, GRANTED consumes one reservation and the other passes to
the lease, and the waiter slot is freed. -/
def State.grantWaiter (s : State) (j : WaiterSlot) (w : Waiter) (i : LeaseSlot) : State :=
  let iv := grantInterval (s.resource w.resource).config s.now w.term
  let wh : WaiterHandle := ⟨(s.waiterRecord j).incarnation, j⟩
  let lh : LeaseHandle := ⟨(s.leaseRecord i).incarnation, i⟩
  let s := s.post w.client (.granted wh lh w.resource w.mode iv.ends)
  let s := s.beginLease i w.resource w.client w.mode w.urgency iv
  s.freeWaiter j (.granted lh)

/-- What a grant pass's walk came to. -/
structure Walk where
  state : State
  grants : Nat
  starved : Bool

/-- The walk of a grant pass over the waiters of a resource's queue, head first: compatibility, room and a free slot in
that order, stopping at the first waiter that fails one (R62); the walk is starved when it stops for want of a slot. -/
def walkQueue (r : ResourceId) : List WaiterSlot → State → Nat → Walk
  | [], s, n => ⟨s, n, false⟩
  | j :: rest, s, n =>
    match s.waiter j with
    | none => ⟨s, n, false⟩
    | some w =>
      if s.compatible r w.mode && s.hasRoom r then
        match s.freeLeaseSlot with
        | none => ⟨s, n, true⟩
        | some i => walkQueue r rest (s.grantWaiter j w i) (n + 1)
      else ⟨s, n, false⟩

/-- A grant is possible: the resource is in IDLE or HELD and its fence mark is clear (R8, R13, R62). -/
def Resource.grantable (x : Resource) : Bool :=
  (decide (x.state = .idle) || decide (x.state = .held)) && !x.fenceMark

/-- The walk a grant pass makes, none on a resource that can grant nothing (R62). -/
def State.passWalk (s : State) (r : ResourceId) : Walk :=
  if (s.resource r).grantable then walkQueue r (s.resource r).queue s 0 else ⟨s, 0, false⟩

/-- A grant pass: the walk, then the starved mark is set or cleared; when it granted and left a queue, the preemption
check runs for the new head (R62, R64). -/
def State.grantPass (s : State) (r : ResourceId) : State × List Work :=
  let w := s.passWalk r
  let x := w.state.resource r
  (w.state.setResource r { x with starved := w.starved },
   if 0 < w.grants ∧ x.queue ≠ [] then [.check r] else [])

/-! ### The preemption check -/

/-- A lease stands in the way of a head of this mode and urgency: it is ACTIVE, of strictly lower urgency, and
incompatible with the head (R81). -/
def Lease.preemptedBy (l : Lease) (m : Mode) (u : Urgency) : Bool :=
  decide (l.state = .active) && decide (l.urgency < u) && (decide (m = .exclusive) || decide (l.mode = .exclusive))

/-- The leases the preemption check selects, in ascending client number, none without a head or on a resource that is
not preemptible (R81, R82). -/
def State.preempted (s : State) (r : ResourceId) : List LeaseSlot :=
  let x := s.resource r
  match x.queue.head?.bind s.waiter with
  | none => []
  | some w =>
    if x.config.preemptible then
      (x.holderList.map Prod.snd).filter fun i => (s.lease i).any fun l => l.preemptedBy w.mode w.urgency
    else []

/-- The preemption check: the selected leases are recalled PREEMPTED one at a time (R82). -/
def State.preemptionCheck (s : State) (r : ResourceId) : List Work :=
  (s.preempted r).map fun i => .recallLease i .preempted (s.resource r).config.grace

/-! ### The recall -/

/-- The recall of the ACTIVE lease in a slot (R74); with grace 0 the forced cut follows at once (R75). A lease that is
not ACTIVE is not recalled again (R76). -/
def State.recallLease (s : State) (i : LeaseSlot) (reason : RecallReason) (grace : Byte) : State × List Work :=
  match s.lease i with
  | none => (s, [])
  | some l =>
    if l.state = .active then
      let lh : LeaseHandle := ⟨(s.leaseRecord i).incarnation, i⟩
      let s := s.post l.holder (.recallNotice lh l.resource reason grace (decide (grace = 0)))
      if grace = 0 then (s.setLease i { l with state := .recalling reason }, [.endLease i .forced])
      else
        let l' : Lease := { l with state := .recalling reason, phase := .grace, deadline := s.now + grace.setWidth 32 }
        ((s.setLease i l').armLease i l', [])
    else (s, [])

/-! ### The end of a lease -/

/-- The resource enters SETTLING, its settle deadline armed at the taken tick plus settle (R10, R21). -/
def State.enterSettling (s : State) (r : ResourceId) : State :=
  let x := s.resource r
  let due := s.now + x.config.settle.setWidth 32
  (s.setResource r { x with state := .settling, settleDeadline := some due }).arm ⟨.resource r, none, .settle, due⟩

/-- The resource goes to SETTLING, or with settle 0 to IDLE with a grant pass (R10, R21). -/
def State.settleOrIdle (s : State) (r : ResourceId) : State × List Work :=
  let x := s.resource r
  if x.config.settle = 0 then (s.setResource r { x with state := .idle }, [.pass r])
  else (s.enterSettling r, [])

/-- A forced end fences: forced_action is FENCE (R9, R10). -/
def ResourceConfig.fences (c : ResourceConfig) (cause : EndCause) : Bool :=
  cause.isForced && decide (c.forcedAction = .fence)

/-- The resource's own step after one of its leases has left the holder set: R9 on a HELD resource with other leases,
R10 on a HELD resource without, R11 on a DRAINING one. -/
def State.afterLeaseLeft (s : State) (r : ResourceId) (cause : EndCause) : State × List Work :=
  let x := s.resource r
  match x.state with
  | .held =>
    if 0 < x.holderCount then
      (s.setResource r { x with fenceMark := x.fenceMark || x.config.fences cause }, [.pass r])
    else if x.fenceMark || x.config.fences cause then
      (s.setResource r { x with state := .fenced, fenceMark := false }, [])
    else s.settleOrIdle r
  | .draining =>
    if 0 < x.holderCount then (s, [])
    else (s.setResource r { x with state := .offline, fenceMark := false, starved := false }, [])
  | _ => (s, [])

/-- The end of the lease in a slot: the line is cut and the lease leaves the holder set, the resource takes its step,
the slot is freed, and the passes of the starved resources follow (R9 to R11, R27, R65). A lease ends once: one that
has left its holder set already is not ended again. -/
def State.endLeaseStep (s : State) (i : LeaseSlot) (cause : EndCause) : State × List Work :=
  match s.lease i with
  | none => (s, [])
  | some l =>
    if s.stands i l then
      let s := s.cutLine ⟨l.resource, l.holder⟩
      let x := s.resource l.resource
      let s := s.setResource l.resource { x with holders := x.holders.set l.holder none }
      let next := s.afterLeaseLeft l.resource cause
      (next.1, next.2 ++ [.freeSlot i cause, .starvedFrom 0])
    else (s, [])

/-- The next starved resource at or after an index (R65). -/
def State.nextStarved (s : State) (index : Nat) : Option ResourceId :=
  resourceIds.find? fun r => decide (index ≤ r.val) && (s.resource r).starved

/-! ### The removal of a waiter -/

/-- The waiter in a slot ends with an outcome that posts nothing or whose notice is already posted (R56): when it was
the head, the preemption check runs for the new head and then a grant pass, even on an empty queue. -/
def State.endWaiter (s : State) (j : WaiterSlot) (w : Waiter) (o : Outcome) : State × List Work :=
  (s.freeWaiter j o, if s.isHead w.resource j then [.check w.resource, .pass w.resource] else [])

/-- The slot of the client's waiter in a resource's queue, if it has one (R30). -/
def State.waitingSlot (s : State) (r : ResourceId) (c : Client) : Option WaiterSlot :=
  (s.resource r).queue.find? fun j => (s.waiter j).any fun w => decide (w.client = c)

/-- The removal of a client's waiter at a session end: both reservations are returned (R73). -/
def State.removeWaitingStep (s : State) (r : ResourceId) (c : Client) (o : Outcome) : State × List Work :=
  match s.waitingSlot r c with
  | none => (s, [])
  | some j =>
    match s.waiter j with
    | none => (s, [])
    | some w => (s.giveBack c 2).endWaiter j w o

/-! ### Doing the work -/

/-- Do one item: the state it leaves, and what it sets off. -/
def doWork (w : Work) (s : State) : State × List Work :=
  match w with
  | .pass r => s.grantPass r
  | .check r => (s, s.preemptionCheck r)
  | .recallLease i reason grace => s.recallLease i reason grace
  | .endLease i cause => s.endLeaseStep i cause
  | .freeSlot i cause => (s.freeLease i cause, [])
  | .starvedFrom index =>
    match s.nextStarved index with
    | none => (s, [])
    | some r => (s, [.pass r, .starvedFrom (r.val + 1)])
  | .endHolding r c cause =>
    match (s.resource r).holders[c] with
    | none => (s, [])
    | some i => (s, [.endLease i cause])
  | .removeWaiting r c o => s.removeWaitingStep r c o

/-- Do a list of items, what an item sets off before what stood behind it. -/
def runWork : Nat → List Work → State → State
  | 0, _, s => s
  | _ + 1, [], s => s
  | n + 1, w :: rest, s => runWork n ((doWork w s).2 ++ rest) (doWork w s).1

/-- More items than any event has to do. -/
def engineFuel : Nat := 8192

/-- Do the work of one event. -/
def State.run (s : State) (work : List Work) : State := runWork engineFuel work s

/-! ### Session ends -/

/-- Step 1: every waiter of the client is removed, in ascending resource index (R73, R117, R120). -/
def State.removeWaiters (s : State) (c : Client) (o : Outcome) : State :=
  s.run (resourceIds.map fun r => .removeWaiting r c o)

/-- Step 2: every lease of the client is ended, in ascending resource index, each with all it sets off (R117, R120). -/
def State.endLeases (s : State) (c : Client) (cause : EndCause) : State :=
  s.run (resourceIds.map fun r => .endHolding r c cause)

/-- Steps 3 and 4: the notice queue is emptied and the context closed (R117, R120, R143). -/
def State.closeContext (s : State) (c : Client) (e : SessionEnd) : State :=
  let s := s.setBox c (s.box c).empty
  s.setSession c { s.session c with isOpen := false, lastEnd := e }

/-- The end of a session (R117, R120); with it the lease count as step 2 began and the waiter count as step 1 began
(R111). -/
def State.endSession (s : State) (c : Client) (o : Outcome) (cause : EndCause) (e : SessionEnd) : State × Nat × Nat :=
  let waiting := s.removeWaiters c o
  ((waiting.endLeases c cause).closeContext c e, (waiting.session c).leaseCount, (s.session c).waiterCount)

/-- A teardown of a client's session (R120). -/
def State.teardown (s : State) (c : Client) (e : SessionEnd) : State × Nat × Nat :=
  s.endSession c .tornDown .tornDown e

end Sys2Proof.Machine
end

