-- ==== Sys2Proof/Machine/Offers.lean ====
section
/-!
DEFINITION. How the engine takes the claim a port offers (R152), the checks common to every request (R2, R113, R165),
and the answer on its way back (R153).
-/

namespace Sys2Proof.Machine

/-! ### A port's offer -/

/-- The oldest pending request of a buffer, and the buffer with that request in service (R146, R152). -/
def nextPending : List Item → Option (Request × List Item)
  | [] => none
  | .request q false :: rest => some (q, .request q true :: rest)
  | x :: rest => (nextPending rest).map fun p => (p.1, x :: p.2)

/-- The port makes its next offer while none stands: an owed teardown claim, else its oldest pending request (R152). -/
def Port.makeOffer (x : Port) : Port :=
  match x.offer with
  | some _ => x
  | none =>
    if 0 < x.owedTeardowns then { x with offer := some .teardown }
    else
      match nextPending x.buffer with
      | none => x
      | some (q, items) => { x with buffer := items, offer := some (.request q) }

/-- The offer is cleared because the engine has taken it, and the port makes its next one (R152). -/
def Port.offerTaken (x : Port) : Port := Port.makeOffer { x with offer := none }

/-- The request that port `p` offers and the engine may serve: its stamp equals the port's link generation (R152). -/
def State.offered (s : State) (p : Client) : Option Request :=
  match (s.port p).offer with
  | some (.request q) => if q.stamp = (s.port p).generation then some q else none
  | _ => none

/-! ### Answers and the common checks -/

/-- What the engine answers: a status and the result bytes. -/
structure Reply where
  status : Status
  results : List Byte
deriving DecidableEq, Repr

/-- An answer without results (R167). -/
def Reply.plain (status : Status) : Reply := ⟨status, []⟩

/-- A refusal: the answer is its only effect (R2). -/
def refuse (status : Status) (s : State) : Reply × State := (.plain status, s)

/-- The checks that come before a request's own, in order: the parameter length (R165), the session and the admin
right (R113). The status of the first that fails. -/
def commonCheck (k : Kind) (q : Request) (x : Session) : Option Status :=
  if q.length.toNat ≠ k.paramLength then some .badParam
  else if x.isOpen = false ∧ k ≠ .openSession then some .noSession
  else if k.isAdmin = true ∧ x.admin = false then some .notPermitted
  else none

/-- The engine hands its answer to the port, and the offer is cleared (R152, R153). -/
def State.answer (s : State) (p : Client) (q : Request) (a : Reply) : State :=
  let x := s.port p
  let sent : AnswerInFlight := ⟨q.stamp, q.tag, q.kind, a.status, s.now, a.results⟩
  s.setPort p (Port.offerTaken { x with inFlight := x.inFlight ++ [sent] })

/-- The engine decides a request in one event: `body` gives the reply and the effect of a request that passes the
common checks (R1, R2), and the list makes its delivery test where its head has changed (R103). -/
def State.decideRequest (s : State) (p : Client) (q : Request) (k : Kind)
    (body : List Byte → State → Reply × State) : State :=
  let result := match commonCheck k q (s.session p) with
    | some status => refuse status s.beginEvent
    | none => body q.params s.beginEvent
  (s.testHead result.2.endEvent).answer p q result.1

/-- The engine takes the request of kind `k` that port `p` offers. Where no such request is offered there is nothing
to take, and nothing changes (assumption log 1). -/
def State.serve (s : State) (p : Client) (k : Kind) (body : List Byte → State → Reply × State) : State :=
  match s.offered p with
  | none => s
  | some q => if kindOfByte q.kind = some k then s.decideRequest p q k body else s

end Sys2Proof.Machine
end

