-- ==== Sys2Proof/Machine/Expiries.lean ====
section
/-!
DEFINITION. Time: the prescaler and the tick counter (R95, R96), the delivery of expiries (R103, R104), and the six
expiries the lease engine takes (R3, R12, R41, R42, R67, R78, R90, R91, R105).
-/

namespace Sys2Proof.Machine

/-! ### The time base -/

/-- The tick counter advances by one and the prescaler returns to 0 (R95). -/
def TimeBase.tick (t : TimeBase) : TimeBase := { t with prescaler := 0, counter := t.counter + 1 }

/-- The counter advances, and the list makes its delivery test with the new value (R95, R103). -/
def State.advance (s : State) : State := (s.setTimeBase s.timeBase.tick).deliver

/-- One REFCLK cycle of the part; the time base stands still while RESET_N is held asserted (R95, R96). -/
def State.refclk (s : State) : State :=
  if s.resetHeld then s
  else if s.timeBase.prescaler + 1 < s.timeBase.divisor then
    s.setTimeBase { s.timeBase with prescaler := s.timeBase.prescaler + 1 }
  else s.advance

/-- TICK: the REFCLK cycles that are left of the current tick arrive, and the counter advances (R95, R96). -/
def execTick (s : State) : Host.Outcome State Fault Refusal := .next (if s.resetHeld then s else s.advance)

/-! ### Delivery -/

/-- EXPIRY_DELIVERY: the list's delivery test, made by itself (R103, R104; assumption log 4). -/
def execExpiryDelivery (s : State) : Host.Outcome State Fault Refusal := .next s.deliver

/-! ### Taking the owed expiry -/

/-- The lease an expiry is current for: the slot is in use, and incarnation, phase and deadline agree (R105). -/
def State.currentLease (s : State) (e : Entry) : Option (LeaseSlot × Lease) :=
  match e.owner with
  | .lease i =>
    match s.lease i with
    | some l =>
      if e.incarnation = some (s.leaseRecord i).incarnation ∧ l.phase.purpose = e.purpose ∧ l.deadline = e.due then
        some (i, l)
      else none
    | none => none
  | _ => none

/-- The waiter an expiry is current for (R105). -/
def State.currentWaiter (s : State) (e : Entry) : Option (WaiterSlot × Waiter) :=
  match e.owner with
  | .waiter j =>
    match s.waiter j with
    | some w =>
      if e.incarnation = some (s.waiterRecord j).incarnation ∧ w.deadline = e.due then some (j, w) else none
    | none => none
  | _ => none

/-- The resource a SETTLE expiry is current for: it is in SETTLING with that settle deadline (R3). -/
def State.currentResource (s : State) (e : Entry) : Option ResourceId :=
  match e.owner with
  | .resource r =>
    if (s.resource r).state = .settling ∧ (s.resource r).settleDeadline = some e.due then some r else none
  | _ => none

/-- The engine takes the owed expiry of a purpose: the delivery place empties, `act` is the effect of the expiry, none
when it is stale, and then the list makes its delivery test, on the list as the event left it (R3, R103). Where no expiry
of that purpose is owed there is nothing to take (assumption log 1). -/
def State.takeExpiry (s : State) (purpose : Purpose) (act : Entry → State → State) : State :=
  match s.deadlines.owed with
  | none => s
  | some e =>
    if e.purpose = purpose then
      ((act e (s.setDeadlines { s.deadlines with owed := none }).beginEvent).endEvent).deliver
    else s

/-- A current WARN expiry: a WARNING is posted or dropped, and the lease enters phase EXPIRE (R41, R134). -/
def warnAct (e : Entry) (s : State) : State :=
  match s.currentLease e with
  | none => s
  | some (i, l) =>
    let ends := e.due + (s.resource l.resource).config.warnLead.setWidth 32
    let lh : LeaseHandle := ⟨(s.leaseRecord i).incarnation, i⟩
    let left : Half := (remaining s.now ends).setWidth 16
    let s := s.setBox l.holder ((s.box l.holder).warn s.now (.warning lh l.resource left))
    let l' : Lease := { l with phase := .expire, deadline := ends }
    (s.setLease i l').armLease i l'

/-- WARN_EXPIRY (R41). -/
def execWarnExpiry (s : State) : Host.Outcome State Fault Refusal := .next (s.takeExpiry .warn warnAct)

/-- A current EXPIRE expiry: the lease is recalled EXPIRED (R42). -/
def expireAct (e : Entry) (s : State) : State :=
  match s.currentLease e with
  | none => s
  | some (i, l) => s.run [.recallLease i .expired (s.resource l.resource).config.grace]

/-- EXPIRE_EXPIRY (R42). -/
def execExpireExpiry (s : State) : Host.Outcome State Fault Refusal := .next (s.takeExpiry .expire expireAct)

/-- The reload of a slice, anchored on the expiry's due tick (R89, R90). -/
def State.reloadSlice (s : State) (i : LeaseSlot) (l : Lease) (due : Tick) : State :=
  let next := nextSlice (s.resource l.resource).config l.trim
  let l' : Lease := { l with trim := next.1, deadline := due + next.2 }
  (s.setLease i l').armLease i l'

/-- A current SLICE expiry: reload when the queue is empty (R90), recall SLICE_END when it is not (R91). -/
def sliceAct (e : Entry) (s : State) : State :=
  match s.currentLease e with
  | none => s
  | some (i, l) =>
    let x := s.resource l.resource
    if x.queue = [] then s.reloadSlice i l e.due else s.run [.recallLease i .sliceEnd x.config.grace]

/-- SLICE_EXPIRY (R90, R91). -/
def execSliceExpiry (s : State) : Host.Outcome State Fault Refusal := .next (s.takeExpiry .slice sliceAct)

/-- A current GRACE expiry: the forced cut (R78). -/
def graceAct (e : Entry) (s : State) : State :=
  match s.currentLease e with
  | none => s
  | some (i, _) => s.run [.endLease i .forced]

/-- GRACE_EXPIRY (R78). -/
def execGraceExpiry (s : State) : Host.Outcome State Fault Refusal := .next (s.takeExpiry .grace graceAct)

/-- A current WAIT expiry: WAIT_ENDED consumes one reservation, the other is returned, the waiter ends TIMED_OUT (R67). -/
def waitAct (e : Entry) (s : State) : State :=
  match s.currentWaiter e with
  | none => s
  | some (j, w) =>
    let wh : WaiterHandle := ⟨(s.waiterRecord j).incarnation, j⟩
    let s := (s.post w.client (.waitEnded wh w.resource .timedOut)).giveBack w.client 1
    let next := s.endWaiter j w .timedOut
    next.1.run next.2

/-- WAIT_EXPIRY (R67). -/
def execWaitExpiry (s : State) : Host.Outcome State Fault Refusal := .next (s.takeExpiry .wait waitAct)

/-- A current SETTLE expiry: the resource enters IDLE, and a grant pass runs for it (R12). -/
def settleAct (e : Entry) (s : State) : State :=
  match s.currentResource e with
  | none => s
  | some r =>
    (s.setResource r { s.resource r with state := .idle, settleDeadline := none }).run [.pass r]

/-- SETTLE_EXPIRY (R12). -/
def execSettleExpiry (s : State) : Host.Outcome State Fault Refusal := .next (s.takeExpiry .settle settleAct)

end Sys2Proof.Machine
end

