-- ==== Sys2Proof/Machine/Operands.lean ====
section
/-!
DEFINITION. The operands of requests: parameter layouts (section 9.6), their ranges (R166), and the resolution of lease
and waiter handles (R28, R55).
-/

namespace Sys2Proof.Machine

/-- The resource a parameter byte names; none above 0x0B (R166). -/
def resourceOfByte (b : Byte) : Option ResourceId := if h : b.toNat < 12 then some ⟨b.toNat, h⟩ else none

/-- The client a parameter byte names; none above 0x03 (R166). -/
def clientOfByte (b : Byte) : Option Client := if h : b.toNat < 4 then some ⟨b.toNat, h⟩ else none

/-- The urgency a parameter byte names; none above 0x03 (R31). -/
def urgencyOfByte (b : Byte) : Option Urgency := if h : b.toNat < 4 then some ⟨b.toNat, h⟩ else none

/-- The threshold a parameter byte names; none above 0x07 (R141). -/
def thresholdOfByte (b : Byte) : Option (Fin 8) := if h : b.toNat < 8 then some ⟨b.toNat, h⟩ else none

/-- The yes/no value a parameter byte names; none above 0x01 (R166). -/
def yesNoOfByte (b : Byte) : Option Bool := if b = 0x00 then some false else if b = 0x01 then some true else none

/-- The handle two parameter bytes spell, incarnation first; none where the slot byte is out of range (R28, R55). -/
def handleOf (n : Nat) (inc slot : Byte) : Option (Handle n) :=
  if h : slot.toNat < n then some ⟨inc, ⟨slot.toNat, h⟩⟩ else none

/-- The handle at an offset of the parameters. -/
def handleAt (n : Nat) (params : List Byte) (offset : Nat) : Option (Handle n) :=
  handleOf n (byteAt params offset) (byteAt params (offset + 1))

/-- The parameters of ACQUIRE (section 9.6), its first own check passed (R31). -/
structure AcquireParams where
  resource : ResourceId
  mode : Mode
  term : Half
  waitLimit : Half
  urgency : Urgency
deriving DecidableEq, Repr

/-- ACQUIRE's parameters; none where the resource, the mode or the urgency is out of range (R31). -/
def acquireParams (params : List Byte) : Option AcquireParams :=
  match resourceOfByte (byteAt params 0), modeOfByte (byteAt params 1), urgencyOfByte (byteAt params 6) with
  | some r, some m, some u => some ⟨r, m, halfAt params 2, halfAt params 4, u⟩
  | _, _, _ => none

/-! ### Resolving a lease handle (R28) -/

/-- What a lease handle comes to. -/
inductive LeaseRef where
  | valid (slot : LeaseSlot) (lease : Lease)
  | gone (cause : EndCause)
  | bad
deriving DecidableEq, Repr

/-- The resolution of a lease handle, the first case that applies (R28). -/
def State.resolveLease (s : State) (h : Option LeaseHandle) : LeaseRef :=
  match h with
  | none => .bad
  | some h =>
    let x := s.leaseRecord h.slot
    match (if h.incarnation = x.incarnation then x.lease else none) with
    | some l => .valid h.slot l
    | none =>
      match (if h.incarnation = x.incarnation - 1 then x.prevEnd else none) with
      | some cause => .gone cause
      | none => .bad

/-- The resolution for a request other than REVOKE: another client's lease is no lease (R28). -/
def State.resolveOwnLease (s : State) (c : Client) (h : Option LeaseHandle) : LeaseRef :=
  match s.resolveLease h with
  | .valid i l => if l.holder = c then .valid i l else .bad
  | other => other

/-! ### Resolving a waiter handle (R55) -/

/-- What a waiter handle comes to. -/
inductive WaiterRef where
  | valid (slot : WaiterSlot) (waiter : Waiter)
  | granted (lease : LeaseHandle)
  | ended (code : Byte)
  | bad
deriving DecidableEq, Repr

/-- What a handle one incarnation behind comes to, by the slot's previous outcome (R55; codes of section 9.4). -/
def Outcome.asRef : Outcome → WaiterRef
  | .granted lease => .granted lease
  | .timedOut => .ended 0x01
  | .offline => .ended 0x02
  | .cancelled => .ended 0x03
  | .tornDown => .ended 0x04

/-- The resolution of a waiter handle for a client, the first case that applies (R55). -/
def State.resolveWaiter (s : State) (c : Client) (h : Option WaiterHandle) : WaiterRef :=
  match h with
  | none => .bad
  | some h =>
    let x := s.waiterRecord h.slot
    match (if h.incarnation = x.incarnation then x.waiter else none) with
    | some w => if w.client = c then .valid h.slot w else .bad
    | none =>
      match (if h.incarnation = x.incarnation - 1 then x.prevOutcome else none) with
      | some o => o.asRef
      | none => .bad

end Sys2Proof.Machine
end

