-- ==== Sys2Proof/Machine/Leasing.lean ====
section
/-!
DEFINITION. The requests on leases and waiters (chapters 2 and 3): ACQUIRE, RENEW, RELEASE, DOWNGRADE, CANCEL, REVOKE.
-/

namespace Sys2Proof.Machine

/-! ### ACQUIRE -/

/-- The client already holds a lease on the resource or waits for it (R30). -/
def State.duplicate (s : State) (r : ResourceId) (c : Client) : Bool :=
  (s.resource r).holders[c].isSome || (s.waitingSlot r c).isSome

/-- Admission checks 2 to 6 of ACQUIRE, in order: the status of the first that fails (R31). -/
def State.admission (s : State) (c : Client) (a : AcquireParams) : Option Status :=
  let x := s.resource a.resource
  if a.mode = .shared ∧ x.config.sharing = .exclusiveOnly then some .badParam
  else if x.config.policy = .term ∧ x.config.maxTerm.toNat < a.term.toNat then some .badParam
  else if x.config.allowed.getLsbD c.val = false then some .notAllowed
  else if x.state = .offline ∨ x.state = .draining then some .offline
  else if s.duplicate a.resource c = true then some .duplicate
  else none

/-- An immediate grant is allowed (R32). -/
def State.immediateAllowed (s : State) (a : AcquireParams) : Bool :=
  let x := s.resource a.resource
  x.queue.isEmpty && !x.fenceMark
    && (decide (x.state = .idle)
      || (decide (x.state = .held) && decide (a.mode = .shared) && s.allShared a.resource && s.hasRoom a.resource))

/-- The immediate grant into lease slot `i` (R35, R40). -/
def State.grantNow (s : State) (c : Client) (a : AcquireParams) (i : LeaseSlot) : Reply × State :=
  let iv := grantInterval (s.resource a.resource).config s.now a.term
  let lh : LeaseHandle := ⟨(s.leaseRecord i).incarnation, i⟩
  let s := s.setBox c ((s.box c).reserve 1)
  (⟨.ok, lh.bytes ++ [a.mode.code] ++ tickBytes iv.ends ++ halfBytes iv.length⟩,
    s.beginLease i a.resource c a.mode a.urgency iv)

/-- The queued path (R58 to R60); `viaFullTable` says the request came by way of R33, for want of a lease slot. -/
def State.queuedPath (s : State) (c : Client) (a : AcquireParams) (viaFullTable : Bool) : Reply × State :=
  match s.freeWaiterSlot with
  | none => refuse .poolFull s
  | some j =>
    if 14 < (s.box c).used then refuse .noticeSpace s
    else
      let w : Waiter := ⟨a.resource, c, a.mode, a.urgency, a.term, s.now + a.waitLimit.setWidth 32⟩
      let wh : WaiterHandle := ⟨(s.waiterRecord j).incarnation, j⟩
      let position := s.enqueuePosition (s.resource a.resource).queue a.urgency
      let s := s.enqueue j w
      let x := s.resource a.resource
      let s := if viaFullTable then s.setResource a.resource { x with starved := true } else s
      let s := if position = 0 then s.run [.check a.resource] else s
      (⟨.queued, wh.bytes ++ [natByte position]⟩, s)

/-- The refusal of a request that will not wait and cannot be granted at once (R34). -/
def Resource.busyStatus (x : Resource) : Status :=
  if x.state = .fenced ∨ (x.state = .held ∧ x.fenceMark = true) then .fenced else .busy

/-- The decision on an admitted ACQUIRE (R32 to R34). -/
def State.admitted (s : State) (c : Client) (a : AcquireParams) : Reply × State :=
  if s.immediateAllowed a then
    match s.freeLeaseSlot with
    | none => if a.waitLimit = 0 then refuse .tableFull s else s.queuedPath c a true
    | some i => if (s.box c).used < Config.noticeEntries then s.grantNow c a i else refuse .noticeSpace s
  else if a.waitLimit = 0 then refuse (s.resource a.resource).busyStatus s
  else s.queuedPath c a false

/-- ACQUIRE's own checks and effects (R31 to R35, R58 to R60). -/
def acquireBody (c : Client) (params : List Byte) (s : State) : Reply × State :=
  match acquireParams params with
  | none => refuse .badParam s
  | some a =>
    match s.admission c a with
    | some status => refuse status s
    | none => s.admitted c a

/-- ACQUIRE. -/
def execAcquire (p : Client) (s : State) : Host.Outcome State Fault Refusal :=
  .next (s.serve p .acquire (acquireBody p))

/-! ### The requests on a lease -/

/-- What a request on a handle that names no lease of the client is answered (R28, R167). -/
def LeaseRef.refusal : LeaseRef → Reply
  | .gone cause => ⟨.gone, [cause.code]⟩
  | _ => .plain .badHandle

/-- RENEW (R43, R44). -/
def renewBody (c : Client) (params : List Byte) (s : State) : Reply × State :=
  let term := halfAt params 2
  match s.resolveOwnLease c (handleAt 32 params 0) with
  | .valid i l =>
    let cfg := (s.resource l.resource).config
    if cfg.policy = .sliced then refuse .notPermitted s
    else if l.state ≠ .active then refuse .tooLate s
    else if cfg.maxTerm.toNat < term.toNat then refuse .badParam s
    else
      let iv := termInterval cfg s.now term
      let l' : Lease := { l with phase := iv.phase, deadline := iv.deadline }
      (⟨.ok, tickBytes iv.ends ++ halfBytes iv.length⟩, (s.setLease i l').armLease i l')
  | other => (other.refusal, s)

/-- RENEW. -/
def execRenew (p : Client) (s : State) : Host.Outcome State Fault Refusal :=
  .next (s.serve p .renew (renewBody p))

/-- RELEASE of an ACTIVE lease, or during grace: the clean end of the lease (R46, R47, R79). -/
def releaseBody (c : Client) (params : List Byte) (s : State) : Reply × State :=
  match s.resolveOwnLease c (handleAt 32 params 0) with
  | .valid i _ => (.plain .ok, s.run [.endLease i .released])
  | other => (other.refusal, s)

/-- RELEASE. -/
def execRelease (p : Client) (s : State) : Host.Outcome State Fault Refusal :=
  .next (s.serve p .release (releaseBody p))

/-- DOWNGRADE (R49, R50). -/
def downgradeBody (c : Client) (params : List Byte) (s : State) : Reply × State :=
  match s.resolveOwnLease c (handleAt 32 params 0) with
  | .valid i l =>
    if l.state ≠ .active then refuse .tooLate s
    else if l.mode = .shared then refuse .wrongState s
    else if (s.resource l.resource).config.sharing = .exclusiveOnly then refuse .notPermitted s
    else
      let s := (s.setLease i { l with mode := .shared }).run [.pass l.resource]
      (⟨.ok, [natByte (s.resource l.resource).holderCount]⟩, s)
  | other => (other.refusal, s)

/-- DOWNGRADE. -/
def execDowngrade (p : Client) (s : State) : Host.Outcome State Fault Refusal :=
  .next (s.serve p .downgrade (downgradeBody p))

/-- CANCEL (R55, R69, R70). -/
def cancelBody (c : Client) (params : List Byte) (s : State) : Reply × State :=
  match s.resolveWaiter c (handleAt 24 params 0) with
  | .valid j w =>
    let next := (s.giveBack c 2).endWaiter j w .cancelled
    (.plain .ok, next.1.run next.2)
  | .granted lease => (⟨.alreadyGranted, lease.bytes⟩, s)
  | .ended code => (⟨.badHandle, [code]⟩, s)
  | .bad => refuse .badHandle s

/-- CANCEL. -/
def execCancel (p : Client) (s : State) : Host.Outcome State Fault Refusal :=
  .next (s.serve p .cancel (cancelBody p))

/-- The OK answer of REVOKE: outcome RECALLING with the grace deadline, or CUT with a zero deadline (R85, R168). -/
def revokeReply (grace : Byte) (now : Tick) : Reply :=
  if grace = 0 then ⟨.ok, 0x02 :: tickBytes 0⟩ else ⟨.ok, 0x01 :: tickBytes (now + grace.setWidth 32)⟩

/-- REVOKE of a lease of any client (R85). -/
def revokeBody (params : List Byte) (s : State) : Reply × State :=
  match s.resolveLease (handleAt 32 params 0) with
  | .valid i l =>
    match yesNoOfByte (byteAt params 2) with
    | none => refuse .badParam s
    | some immediate =>
      if l.state = .active then
        let grace := if immediate then 0 else (s.resource l.resource).config.grace
        (revokeReply grace s.now, s.run [.recallLease i .revoked grace])
      else if immediate then (revokeReply 0 s.now, s.run [.endLease i .forced])
      else refuse .alreadyRecalling s
  | other => (other.refusal, s)

/-- REVOKE. -/
def execRevoke (p : Client) (s : State) : Host.Outcome State Fault Refusal :=
  .next (s.serve p .revoke revokeBody)

end Sys2Proof.Machine
end

