-- ==== Sys2Proof/Machine/Link.lean ====
section
/-!
DEFINITION. The client port link (chapter 8): the transactions PUT, TAKE_ANSWER, TAKE_NOTICE, STATUS, unknown and cut
ones, the placing of answers, the port reset input and device reset.
-/

namespace Sys2Proof.Machine

/-! ### PUT (R150, R151) -/

/-- The port's decision on a frame whose check byte has been received in full (R151). -/
def Port.judgeFrame (x : Port) (q : Request) (check : Byte) : Port :=
  if crc8 ([q.kind, q.tag, q.length] ++ q.params) ≠ check then { x with linkError := true }
  else if x.full then x
  else Port.makeOffer { x with buffer := x.buffer ++ [.request q false], linkError := false }

/-- A PUT whose bytes from position 1 on are `frame`, up to the CS_N rise (R150). -/
def Port.putFrame (x : Port) (frame : List Byte) : Port :=
  match frame with
  | kind :: tag :: n :: rest =>
    if Config.maxParams < n.toNat then { x with linkError := true }
    else if rest.length ≤ n.toNat then { x with linkError := true }
    else x.judgeFrame ⟨kind, tag, n, rest.take n.toNat, x.generation⟩ (byteAt rest n.toNat)
  | _ => { x with linkError := true }

/-! ### TAKE_ANSWER (R154, R155) and TAKE_NOTICE (R136, R137, R157) -/

/-- An acknowledge: the head answer is removed when its sequence number matches (R155). -/
def Port.acknowledge (x : Port) (seq : Byte) : Port :=
  match x.buffer with
  | .answer n _ :: rest => if n = seq then { x with buffer := rest } else x
  | _ => x

/-- A peek: the frame of the answer at the head, none when the answer queue is empty (R154). -/
def Port.peek (x : Port) : Option (List Byte) :=
  match x.buffer with
  | .answer _ frame :: _ => some frame
  | _ => none

/-- A peek at the notice queue: the frame of the head notice (R136, R157). -/
def NoticeBox.peek (b : NoticeBox) : Option (List Byte) := b.queue.head?.map Notice.frame

/-- The bytes from position 1 on of a TAKE that returns a copy: two fillers, the item marker, the frame (section 8.5). -/
def takeOut (copy : Option (List Byte)) : List Byte :=
  match copy with
  | some frame => [0x00, 0x00, 0x01] ++ frame
  | none => [0x00, 0x00, 0x00]

/-- The bytes a port shifts out in as many positions as the client clocks, fillers 0x00 behind them (section 9.2). -/
def shiftOut (positions : Nat) (out : List Byte) : List Byte :=
  (out ++ List.replicate (positions - out.length) 0x00).take positions

/-- What a transaction comes to: the state it leaves and the bytes shifted out from position 1 on. -/
structure Transaction where
  state : State
  out : List Byte

/-- A transaction with no effect and nothing to send. -/
def Transaction.idle (s : State) : Transaction := ⟨s, []⟩

/-- The LINK_ERROR flag of port `p` is set (R150, R151, R156). -/
def State.linkError (s : State) (p : Client) : State := s.setPort p { s.port p with linkError := true }

/-- The step of a TAKE_ANSWER at the end of position 2 (R154, R155). -/
def State.takeAnswerStep (s : State) (p : Client) (flag seq : Byte) : Transaction :=
  let x := if flag = 0x01 then (s.port p).acknowledge seq else s.port p
  ⟨s.setPort p x, takeOut x.peek⟩

/-- The step of a TAKE_NOTICE at the end of position 2 (R136, R137, R157). -/
def State.takeNoticeStep (s : State) (p : Client) (flag seq : Byte) : Transaction :=
  let b := if flag = 0x01 then (s.box p).acknowledge seq else s.box p
  ⟨s.setBox p b, takeOut b.peek⟩

/-- The bytes of a TAKE from position 1 on: an acknowledge flag of no known value sets LINK_ERROR and is refused (R156);
the step is made once the acknowledge sequence has been received in full (R158). -/
def State.take (s : State) (p : Client) (answers : Bool) (received : List Byte) : Transaction :=
  match received with
  | [] => .idle s
  | flag :: rest =>
    if flag ≠ 0x00 ∧ flag ≠ 0x01 then .idle (s.linkError p)
    else
      match rest with
      | [] => .idle s
      | seq :: _ => if answers then s.takeAnswerStep p flag seq else s.takeNoticeStep p flag seq

/-- What the selected transaction does with the bytes received from position 1 on (R148). -/
def State.selected (s : State) (p : Client) (selector : Byte) (received : List Byte) : Transaction :=
  if selector = 0x50 then .idle (s.setPort p ((s.port p).putFrame received))
  else if selector = 0x61 then s.take p true received
  else if selector = 0x62 then s.take p false received
  else .idle s

/-- The bytes the port shifted out in its latest transaction are recorded. -/
def State.recordOut (s : State) (p : Client) (out : List Byte) : State :=
  s.setPort p { s.port p with shiftedOut := out }

/-- Port `p` ignores its SPI lines: RESET_N or its PCLR_N is held asserted (R161, R163). -/
def State.portHeld (s : State) (p : Client) : Bool := s.resetHeld || (s.port p).pclr

/-- The status byte of port `p` at the snapshot (R149). -/
def State.statusOf (s : State) (p : Client) : Byte := statusByte (s.port p) (s.session p) (s.box p)

/-- A transaction on port `p`, from the fall of CS_N to its rise, in which exactly the bytes `received` come in whole
(R148). Nothing happens before the selecting byte has been received in full. -/
def State.transact (s : State) (p : Client) (received : List Byte) : State :=
  if s.portHeld p then s.recordOut p []
  else
    match received with
    | [] => s.recordOut p []
    | selector :: rest =>
      let t := s.selected p selector rest
      t.state.recordOut p (shiftOut received.length (s.statusOf p :: t.out))

/-- PUT (R150, R151). -/
def execPut (p : Client) (frame : List Byte) (s : State) : Host.Outcome State Fault Refusal :=
  .next (s.transact p (0x50 :: frame))

/-- TAKE_ANSWER (R154 to R156). -/
def execTakeAnswer (p : Client) (flag seq : Byte) (more : Nat) (s : State) : Host.Outcome State Fault Refusal :=
  .next (s.transact p (0x61 :: flag :: seq :: List.replicate more 0x00))

/-- TAKE_NOTICE (R136, R137, R156, R157). -/
def execTakeNotice (p : Client) (flag seq : Byte) (more : Nat) (s : State) : Host.Outcome State Fault Refusal :=
  .next (s.transact p (0x62 :: flag :: seq :: List.replicate more 0x00))

/-- STATUS (R148, R149). -/
def execStatus (p : Client) (more : Nat) (s : State) : Host.Outcome State Fault Refusal :=
  .next (s.transact p (0x70 :: List.replicate more 0x00))

/-- UNKNOWN_TRANSACTION: fillers go out and nothing changes (R148). -/
def execUnknownTransaction (p : Client) (selector : Byte) (more : Nat) (s : State) :
    Host.Outcome State Fault Refusal :=
  .next (s.transact p (selector :: List.replicate more 0x00))

/-- CUT_TRANSACTION: the effects its positions have reached stand (R150, R158). -/
def execCutTransaction (p : Client) (received : List Byte) (s : State) : Host.Outcome State Fault Refusal :=
  .next (s.transact p received)

/-! ### Placing an answer (R153) -/

/-- The oldest in-service request of a buffer becomes an answer, in the same place. -/
def placeInBuffer (seq : Byte) (frame : List Byte) : List Item → List Item
  | [] => []
  | .request _ true :: rest => .answer seq frame :: rest
  | x :: rest => x :: placeInBuffer seq frame rest

/-- An answer reaches the port: placed with the next sequence number when its stamp equals the link generation,
discarded otherwise (R153). -/
def Port.receive (x : Port) (a : AnswerInFlight) : Port :=
  if a.stamp = x.generation then
    { x with buffer := placeInBuffer x.answerSeq (a.frame x.answerSeq) x.buffer, answerSeq := x.answerSeq + 1 }
  else x

/-- The oldest answer under way reaches the port; none under way changes nothing. -/
def Port.placeAnswer (x : Port) : Port :=
  match x.inFlight with
  | [] => x
  | a :: rest => Port.receive { x with inFlight := rest } a

/-- PLACE_ANSWER (R153). -/
def execPlaceAnswer (p : Client) (s : State) : Host.Outcome State Fault Refusal :=
  .next (s.setPort p (s.port p).placeAnswer)

/-! ### The port reset input (R160, R161) -/

/-- The offer that outlives a port reset: a teardown claim stands, a request is withdrawn (R160). -/
def Port.keptOffer (x : Port) : Option Offer :=
  match x.offer with
  | some .teardown => some .teardown
  | _ => none

/-- The request whose offer a port reset withdraws, which the engine may take all the same (R162). -/
def Port.withdrawnOffer (x : Port) : Option Request :=
  match x.offer with
  | some (.request q) => some q
  | _ => x.withdrawn

/-- PCLR_N is asserted (R160). -/
def Port.resetPort (x : Port) : Port :=
  Port.makeOffer { x with buffer := []
                          answerSeq := 0
                          linkError := false
                          generation := x.generation + 1
                          owedTeardowns := x.owedTeardowns + 1
                          offer := x.keptOffer
                          withdrawn := x.withdrawnOffer
                          shiftedOut := [] }

/-- The level of PCLR_N of port `p` becomes `v` (true: asserted). -/
def State.setPclr (s : State) (p : Client) (v : Bool) : State := s.setPort p { s.port p with pclr := v }

/-- PORT_RESET: an assertion of PCLR_N acts under R160; while RESET_N is held the port ignores it (R163), and a line
already asserted is not asserted again. -/
def execPortReset (p : Client) (s : State) : Host.Outcome State Fault Refusal :=
  if s.resetHeld || (s.port p).pclr then .next (s.setPclr p true)
  else .next ((s.setPclr p true).setPort p ((s.setPclr p true).port p).resetPort)

/-- PCLR_N_DEASSERTED: the port serves transactions again (R161). -/
def execPclrDeasserted (p : Client) (s : State) : Host.Outcome State Fault Refusal := .next (s.setPclr p false)

/-! ### Device reset (R163) -/

/-- DEVICE_RESET: every block returns to its reset values; RESET_N is held, and each PCLR_N keeps its level. -/
def execDeviceReset (s : State) : Host.Outcome State Fault Refusal :=
  .next { State.reset with
    resetHeld := true
    ports := s.ports.map fun x => Port.atReset x.pclr
    pending := s.pending }

/-- A PCLR_N held asserted as RESET_N is deasserted is taken as an assertion at that moment (R163). -/
def Port.leaveReset (x : Port) : Port := if x.pclr then x.resetPort else x

/-- RESET_N_DEASSERTED (R96, R163). -/
def execResetDeasserted (s : State) : Host.Outcome State Fault Refusal :=
  if s.resetHeld then .next { s with resetHeld := false, ports := s.ports.map Port.leaveReset } else .next s

end Sys2Proof.Machine
end

