-- ==== Sys2Proof/Machine/Queries.lean ====
section
/-!
DEFINITION. The requests that read and change no record: QUERY_LEASE (R51, R52), QUERY_RESOURCE (R23, R24) and
QUERY_DEVICE (R110), with the result layouts of section 9.7.
-/

namespace Sys2Proof.Machine

/-- The results of QUERY_LEASE at a tick (R51, R52, R168). -/
def Lease.view (l : Lease) (now : Tick) : List Byte :=
  [natByte l.resource.val, l.mode.code, natByte l.urgency.val, yesNo l.state.isRecalling, l.state.reasonCode,
    l.phase.code] ++ tickBytes (remaining now l.deadline)

/-- QUERY_LEASE of the client's own lease (R51). -/
def queryLeaseBody (c : Client) (params : List Byte) (s : State) : Reply × State :=
  match s.resolveOwnLease c (handleAt 32 params 0) with
  | .valid _ l => (⟨.ok, l.view s.now⟩, s)
  | other => (other.refusal, s)

/-- QUERY_LEASE. -/
def execQueryLease (p : Client) (s : State) : Host.Outcome State Fault Refusal :=
  .next (s.serve p .queryLease (queryLeaseBody p))

/-- A holder entry of the view of a resource (R23): client, mode, lease state and ticks remaining. The state of a RECALLING
lease carries its first recall reason, which the entry reports (R76). -/
structure HolderEntry where
  client : Client
  mode : Mode
  state : LeaseState
  remaining : Tick
deriving DecidableEq, Repr

/-- The bytes of a holder entry (section 9.7): client in bits 0 and 1, mode in bit 2, lease state in bit 3, then the ticks
remaining. DESIGN CHOICE, unsafe (assumption log 22): R76 has the entry report the first recall reason, but section 9.7
gives the reason no bit and R168 sends bits 4 to 7 as 0. The bytes follow the layout: they say RECALLING and no reason. -/
def HolderEntry.bytes (h : HolderEntry) : List Byte :=
  (BitVec.ofBool h.state.isRecalling ++ BitVec.ofBool (decide (h.mode = .shared)) ++ BitVec.ofNat 2 h.client.val).setWidth 8
    :: tickBytes h.remaining

/-- The holder entry of client `c`'s lease at a tick (R23, R24, R76). -/
def Lease.holderEntry (l : Lease) (c : Client) (now : Tick) : HolderEntry := ⟨c, l.mode, l.state, remaining now l.deadline⟩

/-- The holder entries of a resource, in ascending client number (R23). -/
def State.holderEntries (s : State) (r : ResourceId) : List HolderEntry :=
  (s.resource r).holderList.filterMap fun h => (s.lease h.2).map fun l => l.holderEntry h.1 s.now

/-- The marks byte: bit 0 the fence mark, bit 1 the starved mark. -/
def Resource.marksByte (x : Resource) : Byte :=
  (BitVec.ofBool x.starved ++ BitVec.ofBool x.fenceMark).setWidth 8

/-- The settle remaining: to the settle deadline in SETTLING, 0 in any other state (R23, R24, R168). -/
def Resource.settleRemaining (x : Resource) (now : Tick) : Byte :=
  match x.state, x.settleDeadline with
  | .settling, some due => (remaining now due).setWidth 8
  | _, _ => 0

/-- The head urgency: 0xFF while the queue is empty (R168). -/
def State.headUrgency (s : State) (r : ResourceId) : Byte :=
  match (s.resource r).queue.head?.bind s.waiter with
  | some w => natByte w.urgency.val
  | none => 0xFF

/-- The results of QUERY_RESOURCE (R23; section 9.7). -/
def State.resourceView (s : State) (r : ResourceId) : List Byte :=
  let x := s.resource r
  [x.state.code, x.marksByte] ++ x.config.bytes ++ [x.settleRemaining s.now, natByte x.holderCount]
    ++ (s.holderEntries r).flatMap HolderEntry.bytes ++ [natByte x.queue.length, s.headUrgency r]

/-- QUERY_RESOURCE (R23). -/
def queryResourceBody (params : List Byte) (s : State) : Reply × State :=
  match resourceOfByte (byteAt params 0) with
  | none => refuse .badParam s
  | some r => (⟨.ok, s.resourceView r⟩, s)

/-- QUERY_RESOURCE. -/
def execQueryResource (p : Client) (s : State) : Host.Outcome State Fault Refusal :=
  .next (s.serve p .queryResource queryResourceBody)

/-- The results of QUERY_DEVICE (R110). -/
def State.deviceView (s : State) : List Byte :=
  tickBytes s.now ++ halfBytes (BitVec.ofNat 16 s.timeBase.divisor)
    ++ [natByte s.freeLeaseCount, natByte s.freeWaiterCount, natByte s.deadlines.entries.length,
      clientSetByte s.admins, clientSetByte s.openSessions]

/-- QUERY_DEVICE has no own checks (R110). -/
def queryDeviceBody (_params : List Byte) (s : State) : Reply × State := (⟨.ok, s.deviceView⟩, s)

/-- QUERY_DEVICE. -/
def execQueryDevice (p : Client) (s : State) : Host.Outcome State Fault Refusal :=
  .next (s.serve p .queryDevice queryDeviceBody)

end Sys2Proof.Machine
end

