-- ==== Sys2Proof/Machine/Resources.lean ====
section
/-!
DEFINITION. The administrative requests on resources and the time base: CONFIGURE_RESOURCE (R7), SET_ONLINE (R17),
TAKE_OFFLINE (R18, R19), CLEAR_FENCE (R21, R22), SET_TIMEBASE (R108).
-/

namespace Sys2Proof.Machine

/-- CONFIGURE_RESOURCE: the whole configuration record of an OFFLINE resource is replaced (R7). -/
def configureResourceBody (params : List Byte) (s : State) : Reply × State :=
  match resourceOfByte (byteAt params 0) with
  | none => refuse .badParam s
  | some r =>
    match configAt params 1 with
    | none => refuse .badParam s
    | some c =>
      let x := s.resource r
      if x.state = .offline then (.plain .ok, s.setResource r { x with config := c }) else refuse .wrongState s

/-- CONFIGURE_RESOURCE. -/
def execConfigureResource (p : Client) (s : State) : Host.Outcome State Fault Refusal :=
  .next (s.serve p .configureResource configureResourceBody)

/-- SET_ONLINE: an OFFLINE resource enters IDLE (R17). -/
def setOnlineBody (params : List Byte) (s : State) : Reply × State :=
  match resourceOfByte (byteAt params 0) with
  | none => refuse .badParam s
  | some r =>
    let x := s.resource r
    if x.state = .offline then (.plain .ok, s.setResource r { x with state := .idle }) else refuse .wrongState s

/-- SET_ONLINE. -/
def execSetOnline (p : Client) (s : State) : Host.Outcome State Fault Refusal :=
  .next (s.serve p .setOnline setOnlineBody)

/-- One waiter of a resource taken offline ends: WAIT_ENDED consumes one reservation, the other is returned, the slot is
freed with outcome OFFLINE (R72). -/
def State.dropWaiterOffline (s : State) (j : WaiterSlot) : State :=
  match s.waiter j with
  | none => s
  | some w =>
    let wh : WaiterHandle := ⟨(s.waiterRecord j).incarnation, j⟩
    ((s.post w.client (.waitEnded wh w.resource .offline)).giveBack w.client 1).freeWaiter j .offline

/-- Every waiter of a resource's queue is removed, head first (R72). -/
def State.dropQueue (s : State) (r : ResourceId) : State :=
  (s.resource r).queue.foldl State.dropWaiterOffline s

/-- The answer of TAKE_OFFLINE: the state the resource is in when the event ends, the leases recalled and the waiters
removed (R18, R19). -/
def takeOfflineReply (s : State) (r : ResourceId) (recalled removed : Nat) : Reply :=
  ⟨.ok, [(s.resource r).state.code, natByte recalled, natByte removed]⟩

/-- TAKE_OFFLINE of a resource that holds no lease: the queue is removed, a settle entry cancelled, and the resource
enters OFFLINE (R18). -/
def State.offlineNow (s : State) (r : ResourceId) : State :=
  let s := (s.dropQueue r).disarm (.resource r)
  s.setResource r { s.resource r with state := .offline, settleDeadline := none, starved := false }

/-- The ACTIVE leases on a resource, in ascending client number (R19). -/
def State.activeHolders (s : State) (r : ResourceId) : List LeaseSlot :=
  ((s.resource r).holderList.map Prod.snd).filter fun i => (s.lease i).any fun l => decide (l.state = .active)

/-- TAKE_OFFLINE of a HELD resource, as far as DRAINING: the queue is removed and both marks are cleared (R19,
steps 1 and 2). -/
def State.beginDraining (s : State) (r : ResourceId) : State :=
  let s := s.dropQueue r
  s.setResource r { s.resource r with state := .draining, starved := false, fenceMark := false }

/-- The recalls of TAKE_OFFLINE, one for each ACTIVE lease (R19, step 3). -/
def State.drainRecalls (s : State) (r : ResourceId) : List Work :=
  (s.activeHolders r).map fun i => .recallLease i .offline (s.resource r).config.grace

/-- TAKE_OFFLINE (R18, R19). -/
def takeOfflineBody (params : List Byte) (s : State) : Reply × State :=
  match resourceOfByte (byteAt params 0) with
  | none => refuse .badParam s
  | some r =>
    let removed := (s.resource r).queue.length
    match (s.resource r).state with
    | .offline | .draining => refuse .wrongState s
    | .held =>
      let s := s.beginDraining r
      let work := s.drainRecalls r
      let s := s.run work
      (takeOfflineReply s r work.length removed, s)
    | .idle | .settling | .fenced =>
      let s := s.offlineNow r
      (takeOfflineReply s r 0 removed, s)

/-- TAKE_OFFLINE. -/
def execTakeOffline (p : Client) (s : State) : Host.Outcome State Fault Refusal :=
  .next (s.serve p .takeOffline takeOfflineBody)

/-- CLEAR_FENCE of a FENCED resource (R21), or of the fence mark on a HELD one (R22). -/
def clearFenceBody (params : List Byte) (s : State) : Reply × State :=
  match resourceOfByte (byteAt params 0) with
  | none => refuse .badParam s
  | some r =>
    let x := s.resource r
    if x.state = .fenced then
      let next := s.settleOrIdle r
      let s := next.1.run next.2
      (⟨.ok, [(s.resource r).state.code]⟩, s)
    else if x.state = .held ∧ x.fenceMark = true then
      let s := (s.setResource r { x with fenceMark := false }).run [.pass r]
      (⟨.ok, [(s.resource r).state.code]⟩, s)
    else refuse .wrongState s

/-- CLEAR_FENCE. -/
def execClearFence (p : Client) (s : State) : Host.Outcome State Fault Refusal :=
  .next (s.serve p .clearFence clearFenceBody)

/-- Every one of the twelve resources is OFFLINE (R108). -/
def State.allOffline (s : State) : Bool := resourceIds.all fun r => decide ((s.resource r).state = .offline)

/-- SET_TIMEBASE: the divisor is replaced and the prescaler restarted, while every resource is OFFLINE (R108). -/
def setTimebaseBody (params : List Byte) (s : State) : Reply × State :=
  let divisor := halfAt params 0
  if divisor.toNat = 0 ∨ Config.maxDivisor < divisor.toNat then refuse .badParam s
  else if s.allOffline then
    (⟨.ok, halfBytes divisor ++ halfBytes (BitVec.ofNat 16 s.timeBase.divisor)⟩,
      s.setTimeBase { s.timeBase with divisor := divisor.toNat, prescaler := 0 })
  else refuse .wrongState s

/-- SET_TIMEBASE. -/
def execSetTimebase (p : Client) (s : State) : Host.Outcome State Fault Refusal :=
  .next (s.serve p .setTimebase setTimebaseBody)

end Sys2Proof.Machine
end

