-- ==== Sys2Proof/Machine/Sessions.lean ====
section
/-!
DEFINITION. The requests on sessions and rights (chapter 6) and SET_THRESHOLD (R141): OPEN_SESSION, CLOSE_SESSION,
SET_THRESHOLD, SET_RIGHTS, EVICT_CLIENT; and the teardown claim of a port reset (R121).
-/

namespace Sys2Proof.Machine

/-- OPEN_SESSION: SESSION_OPEN on an open context (R114); on a closed one the session opens (R115). -/
def openSessionBody (c : Client) (_params : List Byte) (s : State) : Reply × State :=
  let x := s.session c
  if x.isOpen then (⟨.sessionOpen, natByte c.val :: halfBytes x.epoch ++ [yesNo x.admin]⟩, s)
  else
    let x' : Session := { x with isOpen := true, epoch := x.epoch + 1, threshold := 0 }
    (⟨.ok, natByte c.val :: halfBytes x'.epoch ++ [yesNo x.admin, x.lastEnd.code]⟩,
      (s.setSession c x').setBox c (s.box c).restart)

/-- OPEN_SESSION (R114, R115). -/
def execOpenSession (p : Client) (s : State) : Host.Outcome State Fault Refusal :=
  .next (s.serve p .openSession (openSessionBody p))

/-- CLOSE_SESSION: a clean end of everything the client holds (R117). -/
def closeSessionBody (c : Client) (_params : List Byte) (s : State) : Reply × State :=
  let e := s.endSession c .cancelled .released .closed
  (⟨.ok, [natByte e.2.1, natByte e.2.2]⟩, e.1)

/-- CLOSE_SESSION (R117). -/
def execCloseSession (p : Client) (s : State) : Host.Outcome State Fault Refusal :=
  .next (s.serve p .closeSession (closeSessionBody p))

/-- SET_THRESHOLD: the context's threshold and the notice unit's copy take the new value (R141). -/
def setThresholdBody (c : Client) (params : List Byte) (s : State) : Reply × State :=
  match thresholdOfByte (byteAt params 0) with
  | none => refuse .badParam s
  | some t =>
    let x := s.session c
    (⟨.ok, [natByte t.val, natByte x.threshold.val]⟩,
      (s.setSession c { x with threshold := t }).setBox c ((s.box c).setThreshold t))

/-- SET_THRESHOLD (R141). -/
def execSetThreshold (p : Client) (s : State) : Host.Outcome State Fault Refusal :=
  .next (s.serve p .setThreshold (setThresholdBody p))

/-- No client but `c` holds the admin right (R126). -/
def State.onlyAdmin (s : State) (c : Client) : Bool := clients.all fun d => decide (d = c) || !(s.session d).admin

/-- SET_RIGHTS: the named client's right is set, but the last one is not removed (R126). -/
def setRightsBody (params : List Byte) (s : State) : Reply × State :=
  match clientOfByte (byteAt params 0), yesNoOfByte (byteAt params 1) with
  | some c, some v =>
    if v = false ∧ (s.session c).admin = true ∧ s.onlyAdmin c = true then refuse .lastAdmin s
    else
      let s := s.setSession c { s.session c with admin := v }
      (⟨.ok, [clientSetByte s.admins]⟩, s)
  | _, _ => refuse .badParam s

/-- SET_RIGHTS (R126). -/
def execSetRights (p : Client) (s : State) : Host.Outcome State Fault Refusal :=
  .next (s.serve p .setRights setRightsBody)

/-- EVICT_CLIENT: the named client's open session is torn down with end cause EVICTED (R123). -/
def evictClientBody (params : List Byte) (s : State) : Reply × State :=
  match clientOfByte (byteAt params 0) with
  | none => refuse .badParam s
  | some c =>
    if (s.session c).isOpen then
      let e := s.teardown c .evicted
      (⟨.ok, [natByte e.2.1, natByte e.2.2]⟩, e.1)
    else refuse .wrongState s

/-- EVICT_CLIENT (R123). -/
def execEvictClient (p : Client) (s : State) : Host.Outcome State Fault Refusal :=
  .next (s.serve p .evictClient evictClientBody)

/-! ### The claims that are no known request -/

/-- UNKNOWN_KIND: a request whose kind byte is no known code is answered UNKNOWN_KIND and changes nothing (R165). -/
def execUnknownKind (p : Client) (s : State) : Host.Outcome State Fault Refusal :=
  match s.offered p with
  | none => .next s
  | some q =>
    if kindOfByte q.kind = none then .next ((s.beginEvent.endEvent).answer p q (.plain .unknownKind)) else .next s

/-- The port after the engine has discarded a request of a generation that is over: the request a port reset withdrew,
else an offer whose stamp differs from the link generation (R152, R162). -/
def Port.discardStale (x : Port) : Port :=
  match x.withdrawn with
  | some _ => { x with withdrawn := none }
  | none =>
    match x.offer with
    | some (.request q) => if q.stamp = x.generation then x else x.offerTaken
    | _ => x

/-- DISCARDED_UNSERVED: no check, no answer, no record changed (R152, R162). -/
def execDiscardedUnserved (p : Client) (s : State) : Host.Outcome State Fault Refusal :=
  .next (s.setPort p (s.port p).discardStale)

/-- The port after the engine has taken its teardown claim: one claim fewer is owed, and a request withdrawn before
the claim was sent can no longer be taken (R121, R152). -/
def Port.teardownTaken (x : Port) : Port :=
  Port.offerTaken { x with owedTeardowns := x.owedTeardowns - 1, withdrawn := none }

/-- The effect of a teardown claim on the client's session: a teardown when it is OPEN, nothing otherwise (R121); the
list makes its delivery test where its head has changed (R103). -/
def State.takeTeardown (s : State) (c : Client) : State :=
  s.testHead (if (s.session c).isOpen then (s.beginEvent.teardown c .portReset).1 else s.beginEvent).endEvent

/-- TEARDOWN_CLAIM (R120, R121). -/
def execTeardownClaim (p : Client) (s : State) : Host.Outcome State Fault Refusal :=
  match (s.port p).offer with
  | some .teardown =>
    let s := s.takeTeardown p
    .next (s.setPort p (s.port p).teardownTaken)
  | _ => .next s

end Sys2Proof.Machine
end

