-- ==== Sys2Proof/Machine/Dispatch.lean ====
section
/-!
DEFINITION. The meaning of every command: one arm for each row of spec/opcode_table.json.
-/

namespace Sys2Proof.Machine

/-- The command's effect on everything but the queue of waiting commands. -/
def exec (i : Instr) (s : State) : Host.Outcome State Fault Refusal :=
  match i with
  | .openSession p => Sys2Proof.Machine.execOpenSession p s
  | .closeSession p => Sys2Proof.Machine.execCloseSession p s
  | .setThreshold p => Sys2Proof.Machine.execSetThreshold p s
  | .acquire p => Sys2Proof.Machine.execAcquire p s
  | .renew p => Sys2Proof.Machine.execRenew p s
  | .release p => Sys2Proof.Machine.execRelease p s
  | .downgrade p => Sys2Proof.Machine.execDowngrade p s
  | .cancel p => Sys2Proof.Machine.execCancel p s
  | .queryLease p => Sys2Proof.Machine.execQueryLease p s
  | .queryResource p => Sys2Proof.Machine.execQueryResource p s
  | .queryDevice p => Sys2Proof.Machine.execQueryDevice p s
  | .configureResource p => Sys2Proof.Machine.execConfigureResource p s
  | .setOnline p => Sys2Proof.Machine.execSetOnline p s
  | .takeOffline p => Sys2Proof.Machine.execTakeOffline p s
  | .clearFence p => Sys2Proof.Machine.execClearFence p s
  | .revoke p => Sys2Proof.Machine.execRevoke p s
  | .setTimebase p => Sys2Proof.Machine.execSetTimebase p s
  | .setRights p => Sys2Proof.Machine.execSetRights p s
  | .evictClient p => Sys2Proof.Machine.execEvictClient p s
  | .unknownKind p => Sys2Proof.Machine.execUnknownKind p s
  | .discardedUnserved p => Sys2Proof.Machine.execDiscardedUnserved p s
  | .teardownClaim p => Sys2Proof.Machine.execTeardownClaim p s
  | .warnExpiry => Sys2Proof.Machine.execWarnExpiry s
  | .expireExpiry => Sys2Proof.Machine.execExpireExpiry s
  | .sliceExpiry => Sys2Proof.Machine.execSliceExpiry s
  | .graceExpiry => Sys2Proof.Machine.execGraceExpiry s
  | .waitExpiry => Sys2Proof.Machine.execWaitExpiry s
  | .settleExpiry => Sys2Proof.Machine.execSettleExpiry s
  | .expiryDelivery => Sys2Proof.Machine.execExpiryDelivery s
  | .tick => Sys2Proof.Machine.execTick s
  | .put p frame => Sys2Proof.Machine.execPut p frame s
  | .takeAnswer p flag seq more => Sys2Proof.Machine.execTakeAnswer p flag seq more s
  | .takeNotice p flag seq more => Sys2Proof.Machine.execTakeNotice p flag seq more s
  | .status p more => Sys2Proof.Machine.execStatus p more s
  | .unknownTransaction p selector more => Sys2Proof.Machine.execUnknownTransaction p selector more s
  | .cutTransaction p received => Sys2Proof.Machine.execCutTransaction p received s
  | .placeAnswer p => Sys2Proof.Machine.execPlaceAnswer p s
  | .portReset p => Sys2Proof.Machine.execPortReset p s
  | .pclrDeasserted p => Sys2Proof.Machine.execPclrDeasserted p s
  | .deviceReset => Sys2Proof.Machine.execDeviceReset s
  | .resetDeasserted => Sys2Proof.Machine.execResetDeasserted s

end Sys2Proof.Machine
end

