-- ==== Sys2Proof/Safety.lean ====
section
/-!
DEFINITION. What a safe run keeps: the laws of the device the manual states (R5, R15, R25, R30, R57, R99, R100, R103,
R111, R112, R126, R131, R140, R147), each as a decidable property of one state between events.
-/

namespace Sys2Proof.Machine

/-- Client `c` holds the lease in slot `i` on resource `r`. -/
abbrev State.holdsIn (s : State) (r : ResourceId) (c : Client) (i : LeaseSlot) : Prop :=
  ∃ l ∈ s.lease i, l.resource = r ∧ l.holder = c

/-- Client `c` holds a lease on resource `r`, ACTIVE or RECALLING. -/
abbrev State.holds (s : State) (r : ResourceId) (c : Client) : Prop := ∃ i : LeaseSlot, s.holdsIn r c i

/-- Client `c` has the waiter in slot `j`, for resource `r`. -/
abbrev State.waitsIn (s : State) (r : ResourceId) (c : Client) (j : WaiterSlot) : Prop :=
  ∃ w ∈ s.waiter j, w.resource = r ∧ w.client = c

/-- R4, R25, R26: the holder sets and the lease table name each other's records. -/
abbrev State.HoldersAgree (s : State) : Prop :=
  ∀ (r : ResourceId) (c : Client) (i : LeaseSlot), (s.resource r).holders[c] = some i ↔ s.holdsIn r c i

/-- R4, R54: the queues and the waiter pool name each other's records, each waiter once. -/
abbrev State.QueuesAgree (s : State) : Prop :=
  ∀ r : ResourceId, (s.resource r).queue.Nodup ∧
    ∀ j : WaiterSlot, j ∈ (s.resource r).queue ↔ ∃ w ∈ s.waiter j, w.resource = r

/-- R5: the contents of a resource record are bound by its state. -/
abbrev State.ResourceLaw (s : State) : Prop :=
  ∀ r : ResourceId, match (s.resource r).state with
    | .offline => (s.resource r).holderCount = 0 ∧ (s.resource r).queue = []
    | .idle | .settling | .fenced => (s.resource r).holderCount = 0
    | .held => 1 ≤ (s.resource r).holderCount ∧ (s.resource r).holderCount ≤ (s.resource r).config.maxShared
    | .draining => 1 ≤ (s.resource r).holderCount ∧ (s.resource r).holderCount ≤ (s.resource r).config.maxShared
        ∧ (s.resource r).queue = [] ∧ ∀ i : LeaseSlot, ∀ l ∈ s.lease i, l.resource = r → l.state ≠ .active

/-- R11, R13, R19: the fence mark is set in HELD alone, and a resource in OFFLINE or DRAINING is not starved. -/
abbrev State.MarkLaw (s : State) : Prop :=
  ∀ r : ResourceId, ((s.resource r).fenceMark = true → (s.resource r).state = .held) ∧
    ((s.resource r).starved = true → (s.resource r).state ≠ .offline ∧ (s.resource r).state ≠ .draining)

/-- Section 1.4: a resource has waiters in IDLE only while it is starved. -/
abbrev State.IdleLaw (s : State) : Prop :=
  ∀ r : ResourceId, (s.resource r).state = .idle → (s.resource r).queue ≠ [] → (s.resource r).starved = true

/-- R5: an EXCLUSIVE lease is alone on its resource. -/
abbrev State.ExclusiveAlone (s : State) : Prop :=
  ∀ i : LeaseSlot, ∀ l ∈ s.lease i, l.mode = .exclusive → (s.resource l.resource).holderCount = 1

/-- R4: a settle deadline is present exactly in SETTLING. -/
abbrev State.SettleLaw (s : State) : Prop :=
  ∀ r : ResourceId, ((s.resource r).settleDeadline.isSome = true ↔ (s.resource r).state = .settling)

/-- R6: every configuration record is within its ranges. -/
abbrev State.ConfigLaw (s : State) : Prop := ∀ r : ResourceId, (s.resource r).config.inRange = true

/-- R15: a grant line is asserted exactly while its client holds a lease on its resource. -/
abbrev State.LineLaw (s : State) : Prop := ∀ (r : ResourceId) (c : Client), s.line r c = true ↔ s.holds r c

/-- R30: no client holds a lease and a waiter on one resource. -/
abbrev State.OneClaimLaw (s : State) : Prop :=
  ∀ (r : ResourceId) (c : Client) (j : WaiterSlot), s.waitsIn r c j →
    ¬ s.holds r c ∧ ∀ j' : WaiterSlot, s.waitsIn r c j' → j' = j

/-- R57: every queue is ordered by non-increasing urgency. -/
abbrev State.QueueOrder (s : State) : Prop :=
  ∀ r : ResourceId, (s.resource r).queue.Pairwise fun i j =>
    ∀ v ∈ s.waiter i, ∀ w ∈ s.waiter j, w.urgency ≤ v.urgency

/-- R74, R76: a lease is in phase GRACE exactly while it is RECALLING. -/
abbrev State.PhaseLaw (s : State) : Prop :=
  ∀ i : LeaseSlot, ∀ l ∈ s.lease i, (l.state ≠ .active ↔ l.phase = .grace)

/-- R38, R39: the phase of a lease before its recall fits its resource's policy. -/
abbrev State.PolicyLaw (s : State) : Prop :=
  ∀ i : LeaseSlot, ∀ l ∈ s.lease i,
    (l.phase = .slice → (s.resource l.resource).config.policy = .sliced) ∧
    ((l.phase = .warn ∨ l.phase = .expire) → (s.resource l.resource).config.policy = .term)

/-- The entry that a lease, a waiter or a settling resource has in the deadline list (R99). -/
def State.entryOf (s : State) (o : Owner) : Option Entry :=
  match o with
  | .lease i => (s.lease i).map fun l => ⟨o, some (s.leaseRecord i).incarnation, l.phase.purpose, l.deadline⟩
  | .waiter j => (s.waiter j).map fun w => ⟨o, some (s.waiterRecord j).incarnation, .wait, w.deadline⟩
  | .resource r =>
    if (s.resource r).state = .settling then (s.resource r).settleDeadline.map fun d => ⟨o, none, .settle, d⟩ else none

/-- R99: no owner has two entries in the list. -/
abbrev State.OneEntryEach (s : State) : Prop := (s.deadlines.entries.map Entry.owner).Nodup

/-- R99: the list holds entries of the owners alone, and every owner's but for the one whose expiry is owed. -/
abbrev State.EntryLaw (s : State) : Prop :=
  (∀ e ∈ s.deadlines.entries, s.entryOf e.owner = some e) ∧
  ∀ o : Owner, ∀ e ∈ s.entryOf o, e ∈ s.deadlines.entries ∨ s.deadlines.owed = some e

/-- The entries of an owner in the deadline list (R99: one at most). -/
def State.entriesOf (s : State) (o : Owner) : List Entry := s.deadlines.entries.filter fun e => decide (e.owner = o)

/-- The expiry `e` is current: its owner still runs that interval to that due tick (R3, R105). -/
def State.Current (s : State) (e : Entry) : Prop :=
  match e.owner with
  | .lease i => ∃ l ∈ s.lease i,
      e.incarnation = some (s.leaseRecord i).incarnation ∧ l.phase.purpose = e.purpose ∧ l.deadline = e.due
  | .waiter j => ∃ w ∈ s.waiter j,
      e.purpose = .wait ∧ e.incarnation = some (s.waiterRecord j).incarnation ∧ w.deadline = e.due
  | .resource r => e.purpose = .settle ∧ (s.resource r).state = .settling ∧ (s.resource r).settleDeadline = some e.due

/-- R99, R101, R103: the owner of an owed expiry that is still current has no entry in the list. -/
abbrev State.OwedLaw (s : State) : Prop :=
  ∀ e ∈ s.deadlines.owed, s.Current e → s.entriesOf e.owner = []

/-- R97, R103: the due tick of an owed expiry counts as reached. It did as the expiry was delivered, and does until the
counter has come 2^31 ticks further. -/
abbrev State.OwedReached (s : State) : Prop := ∀ e ∈ s.deadlines.owed, reached s.now e.due = true

/-- R100: no entry stands behind one that falls due later. -/
abbrev State.DueOrder (s : State) : Prop :=
  s.deadlines.entries.Pairwise fun a b => dueAhead b.due a.due = false

/-- R97: the due ticks of the list stand in the half of the tick range that begins at `base`, and the counter and the due
tick of the owed expiry stand far enough from its end that the longest interval of 65536 ticks fits before it. -/
abbrev State.DueWithin (s : State) (base : Tick) : Prop :=
  (∀ e ∈ s.deadlines.entries, (e.due - base).toNat < 2 ^ 31) ∧ (s.now - base).toNat + 65536 < 2 ^ 31 ∧
    ∀ e ∈ s.deadlines.owed, (e.due - base).toNat + 65536 < 2 ^ 31

/-- R103: while nothing is owed, the head of the list is not reached. -/
abbrev State.DeliveryLaw (s : State) : Prop :=
  s.deadlines.owed = none → ∀ e ∈ s.deadlines.entries.head?, reached s.now e.due = false

/-- R111, R141: the notice unit's threshold copy is the context's threshold. -/
abbrev State.ThresholdLaw (s : State) : Prop := ∀ c : Client, (s.box c).threshold = (s.session c).threshold

/-- R111: the counts of a context are the counts of the tables. -/
abbrev State.CountLaw (s : State) : Prop :=
  ∀ c : Client,
    (s.session c).leaseCount = leaseSlots.countP (fun i => (s.lease i).any fun l => decide (l.holder = c)) ∧
    (s.session c).waiterCount = waiterSlots.countP (fun j => (s.waiter j).any fun w => decide (w.client = c))

/-- R112: a client whose session is CLOSED holds no lease and no waiter, and its notice queue is empty. -/
abbrev State.ClosedLaw (s : State) : Prop :=
  ∀ c : Client, (s.session c).isOpen = false →
    (s.session c).leaseCount = 0 ∧ (s.session c).waiterCount = 0 ∧ (s.box c).queue = [] ∧ (s.box c).reservations = 0

/-- R126: at least one client holds the admin right. -/
abbrev State.AdminLaw (s : State) : Prop := ∃ c : Client, (s.session c).admin = true

/-- R131: notices queued plus reservations never exceed 16. -/
abbrev State.NoticeRoom (s : State) : Prop := ∀ c : Client, (s.box c).used ≤ Config.noticeEntries

/-- R131: the reservations equal the client's ACTIVE leases plus twice its waiters. -/
abbrev State.ReservationLaw (s : State) : Prop :=
  ∀ c : Client, (s.box c).reservations
    = leaseSlots.countP (fun i => (s.lease i).any fun l => decide (l.holder = c) && decide (l.state = .active))
      + 2 * waiterSlots.countP (fun j => (s.waiter j).any fun w => decide (w.client = c))

/-- R140: the attention line is asserted exactly while a queued notice has a level above the threshold copy. -/
abbrev State.AttentionLaw (s : State) : Prop :=
  ∀ c : Client, (s.box c).attention = true ↔ ∃ n ∈ (s.box c).queue, (s.box c).threshold.val < n.body.level

/-- R147: no request buffer holds more than 4 items. -/
abbrev State.BufferLaw (s : State) : Prop := ∀ p : Client, (s.port p).buffer.length ≤ Config.bufferItems

/-- Where an item of a request buffer has got to: 0 an answer, 1 a request in service, 2 a pending request. -/
def Item.rank : Item → Nat
  | .answer _ _ => 0
  | .request _ true => 1
  | .request _ false => 2

/-- R146, R152: in a request buffer the answers stand in front, then the requests in service, then the pending ones. -/
abbrev State.ItemsInOrder (s : State) : Prop :=
  ∀ p : Client, (s.port p).buffer.Pairwise fun a b => a.rank ≤ b.rank

/-- R95, R108: the divisor is 1 to 4096 and the prescaler runs from 0 to the divisor minus one. -/
abbrev State.TimeBaseLaw (s : State) : Prop :=
  1 ≤ s.timeBase.divisor ∧ s.timeBase.divisor ≤ Config.maxDivisor ∧ s.timeBase.prescaler < s.timeBase.divisor

/-- R16: between events no set command is held back, and the latest event's cuts were driven before its sets. -/
abbrev State.GateLaw (s : State) : Prop :=
  s.gate.held = [] ∧ ∃ cuts sets : List Line, s.gate.driven = cuts.map .cut ++ sets.map .set

/-! ### What a command changes, and what it leaves unchanged -/

/-- The grant lines after one command of the engine (R15). -/
def LineCommand.drive (lines : Vector (Vector Bool 4) 12) : LineCommand → Vector (Vector Bool 4) 12
  | .cut l => setLine lines l false
  | .set l => setLine lines l true

/-- The gate unit after an engine event that drove these commands in this order (R15, R16). -/
def Gate.after (g : Gate) (commands : List LineCommand) : Gate :=
  ⟨commands.foldl LineCommand.drive g.lines, [], commands⟩

/-- The records a command may change. Everything not named stays as it was: `gate` is none for a command that is no
engine event, else the line commands the event drives. -/
structure Touched where
  resources : List ResourceId := []
  leases : List LeaseSlot := []
  waiters : List WaiterSlot := []
  sessions : List Client := []
  boxes : List Client := []
  ports : List Client := []
  owners : List Owner := []
  owed : Bool := false
  timeBase : Bool := false
  gate : Option (List LineCommand) := none

/-- From `s` to `t` nothing has changed but the records named: the frame of a command. The entries of all other owners
stand in the deadline list as they stood, in the same order, and every line follows from the commands driven. -/
structure State.Frame (s t : State) (m : Touched) : Prop where
  resetHeld : t.resetHeld = s.resetHeld
  pending : t.pending = s.pending
  timeBase : m.timeBase = false → t.timeBase = s.timeBase
  resources : ∀ r : ResourceId, r ∉ m.resources → t.resource r = s.resource r
  leases : ∀ i : LeaseSlot, i ∉ m.leases → t.leaseRecord i = s.leaseRecord i
  waiters : ∀ j : WaiterSlot, j ∉ m.waiters → t.waiterRecord j = s.waiterRecord j
  sessions : ∀ c : Client, c ∉ m.sessions → t.session c = s.session c
  boxes : ∀ c : Client, c ∉ m.boxes → t.box c = s.box c
  ports : ∀ p : Client, p ∉ m.ports → t.port p = s.port p
  entries : t.deadlines.entries.filter (fun e => decide (e.owner ∉ m.owners))
    = s.deadlines.entries.filter (fun e => decide (e.owner ∉ m.owners))
  owed : m.owed = false → t.deadlines.owed = s.deadlines.owed
  gate : t.gate = match m.gate with
    | none => s.gate
    | some commands => s.gate.after commands

/-- Within an engine event, from `s` to `t` only the records named have changed; what the gate unit has done is said
apart. -/
abbrev State.Within (s t : State) (m : Touched) : Prop := s.Frame (t.setGate s.gate) m

/-- What an engine event that began in `s` has done up to `u`, before the held-back sets are driven: only the records
named have changed, these lines have been cut, and these sets are held back. -/
structure State.Inner (s u : State) (m : Touched) (cuts sets : List Line) : Prop where
  frame : s.Frame (u.setGate s.gate) { m with gate := none, ports := [] }
  now : u.now = s.now
  gate : u.gate = ⟨cuts.foldl (fun lines x => setLine lines x false) s.gate.lines, sets, cuts.map .cut⟩

/-- The command that stands for the engine taking a request of a kind from port `p`. -/
def Kind.command : Kind → Client → Instr
  | .openSession => .openSession
  | .closeSession => .closeSession
  | .setThreshold => .setThreshold
  | .acquire => .acquire
  | .renew => .renew
  | .release => .release
  | .downgrade => .downgrade
  | .cancel => .cancel
  | .queryLease => .queryLease
  | .queryResource => .queryResource
  | .queryDevice => .queryDevice
  | .configureResource => .configureResource
  | .setOnline => .setOnline
  | .takeOffline => .takeOffline
  | .clearFence => .clearFence
  | .revoke => .revoke
  | .setTimebase => .setTimebase
  | .setRights => .setRights
  | .evictClient => .evictClient

/-- Port `p` offers the request `q`, of kind `k`, and it passes the checks common to all kinds (R2, R113, R165). -/
structure State.Serving (s : State) (p : Client) (q : Request) (k : Kind) : Prop where
  offered : s.offered p = some q
  kind : kindOfByte q.kind = some k
  length : q.length.toNat = k.paramLength
  isOpen : k ≠ .openSession → (s.session p).isOpen = true
  admin : k.isAdmin = true → (s.session p).admin = true

/-- From `s` to `t` the engine has taken the request `q` of port `p` and handed the port its one answer, with the
request's tag and kind and the taken tick (R2, R152, R153); beside that, only the records named have changed, and the
event drove the line commands named. -/
abbrev State.Served (s t : State) (p : Client) (q : Request) (status : Status) (results : List Byte)
    (m : Touched) (commands : List LineCommand) : Prop :=
  t.port p = Port.offerTaken { s.port p with
      inFlight := (s.port p).inFlight ++ [⟨q.stamp, q.tag, q.kind, status, s.now, results⟩] } ∧
  s.Frame t { m with ports := [p], gate := some commands }

/-- The request is refused: its answer is its only effect (R2). -/
abbrev State.Refused (s t : State) (p : Client) (q : Request) (status : Status) (results : List Byte) : Prop :=
  s.Served t p q status results {} []

/-- From `s` to `t` the engine has taken the owed expiry `e`; beside that, only the records named have changed, and
the event drove the line commands named. -/
abbrev State.Taken (s t : State) (m : Touched) (commands : List LineCommand) : Prop :=
  t.deadlines.owed = none ∧ s.Frame t { m with owed := true, gate := some commands }

/-- The command that stands for the engine taking an expiry of a purpose. -/
def Purpose.command : Purpose → Instr
  | .warn => .warnExpiry
  | .expire => .expireExpiry
  | .slice => .sliceExpiry
  | .grace => .graceExpiry
  | .wait => .waitExpiry
  | .settle => .settleExpiry

/-- The handle of the lease in a slot. -/
def State.leaseHandle (s : State) (i : LeaseSlot) : LeaseHandle := ⟨(s.leaseRecord i).incarnation, i⟩

/-- The handle of the waiter in a slot. -/
def State.waiterHandle (s : State) (j : WaiterSlot) : WaiterHandle := ⟨(s.waiterRecord j).incarnation, j⟩

/-- The deadline entry of a lease record in a slot (R26, R99). -/
def State.leaseEntry (s : State) (i : LeaseSlot) (l : Lease) : Entry :=
  ⟨.lease i, some (s.leaseRecord i).incarnation, l.phase.purpose, l.deadline⟩

/-! ### What the steps that several commands share come to -/

/-- R112, R117, R120, R143: what the end of client `c`'s session leaves: the context closed with its end cause, and the
client with no lease, no waiter, no notice, no reservation and no asserted line. The contexts of the others stay open or
closed as they were. -/
structure State.SessionLeft (s t : State) (c : Client) (e : SessionEnd) : Prop where
  session : t.session c = { s.session c with isOpen := false, lastEnd := e, leaseCount := 0, waiterCount := 0 }
  leases : ∀ i : LeaseSlot, ∀ l ∈ t.lease i, l.holder ≠ c
  waiters : ∀ j : WaiterSlot, ∀ w ∈ t.waiter j, w.client ≠ c
  box : (t.box c).queue = [] ∧ (t.box c).reservations = 0 ∧ (t.box c).warnLost = false ∧ (t.box c).attention = false
  lines : ∀ r : ResourceId, t.line r c = false
  others : ∀ d : Client, d ≠ c → (t.session d).isOpen = (s.session d).isOpen ∧
    (t.session d).epoch = (s.session d).epoch ∧ (t.session d).lastEnd = (s.session d).lastEnd

/-- R27, R56, R73, R117, R120: what a session end that recalls nobody leaves in the slots of client `c`: every lease it held
is freed once, with cause `cause` (the slot may hold a new lease of another client), and every waiter once, with outcome
`o`. -/
structure State.SessionHistory (s t : State) (c : Client) (o : Outcome) (cause : EndCause) : Prop where
  leases : ∀ i : LeaseSlot, ∀ l ∈ s.lease i, l.holder = c →
    (t.leaseRecord i).incarnation = (s.leaseRecord i).incarnation + 1 ∧ (t.leaseRecord i).prevEnd = some cause
  waiters : ∀ j : WaiterSlot, ∀ w ∈ s.waiter j, w.client = c →
    t.waiterRecord j = ⟨(s.waiterRecord j).incarnation + 1, some o, none⟩

/-- R9, R10, R11: a HELD or DRAINING resource on which nobody waits, after the end of client `c`'s lease on it. -/
def Resource.afterEnd (x : Resource) (c : Client) (cause : EndCause) (now : Tick) : Resource :=
  let y := { x with holders := x.holders.set c none }
  let mark := x.fenceMark || (cause.isForced && decide (x.config.forcedAction = .fence))
  if x.state = .draining then
    if y.holderCount = 0 then { y with state := .offline, fenceMark := false, starved := false } else y
  else if y.holderCount ≠ 0 then { y with fenceMark := mark }
  else if mark then { y with state := .fenced, fenceMark := false }
  else if x.config.settle = 0 then { y with state := .idle }
  else { y with state := .settling, settleDeadline := some (now + x.config.settle.setWidth 32) }

/-- The lease in slot `i` stands on a HELD or DRAINING resource, nobody waits for that resource and no resource is
starved, so its end sets off nothing beyond itself. -/
structure State.EndsAlone (s : State) (i : LeaseSlot) (l : Lease) : Prop where
  lease : s.lease i = some l
  stands : (s.resource l.resource).holders[l.holder] = some i
  state : (s.resource l.resource).state = .held ∨ (s.resource l.resource).state = .draining
  queue : (s.resource l.resource).queue = []
  starved : ∀ r : ResourceId, (s.resource r).starved = false

/-- The records that the end of the lease in slot `i` reaches when it sets off nothing beyond itself. -/
def Lease.endTouches (l : Lease) (i : LeaseSlot) : Touched :=
  { resources := [l.resource], leases := [i], sessions := [l.holder], boxes := [l.holder],
    owners := [.lease i, .resource l.resource] }

/-- R9 to R11, R27: the lease that stood in slot `i` has ended with a cause, its holder's notice state being `box`. -/
structure State.LeaseEnded (s t : State) (i : LeaseSlot) (l : Lease) (cause : EndCause) (box : NoticeBox) : Prop where
  slot : t.leaseRecord i = ⟨(s.leaseRecord i).incarnation + 1, some cause, none⟩
  resource : t.resource l.resource = (s.resource l.resource).afterEnd l.holder cause s.now
  session : t.session l.holder = { s.session l.holder with leaseCount := (s.session l.holder).leaseCount - 1 }
  box : t.box l.holder = box
  leaseEntry : t.entriesOf (.lease i) = []
  settleEntry : t.entriesOf (.resource l.resource) =
    if (t.resource l.resource).state = .settling then
      [⟨.resource l.resource, none, .settle, s.now + (s.resource l.resource).config.settle.setWidth 32⟩]
    else s.entriesOf (.resource l.resource)

/-- The notice state of a holder whose ACTIVE lease is released: its reservation is returned (R27, R47, R131). -/
def NoticeBox.oneReturned (b : NoticeBox) : NoticeBox := { b with reservations := b.reservations - 1 }

/-- The RECALL notice of the lease in slot `i` (R74, R75, R130). -/
def State.recallNotice (s : State) (i : LeaseSlot) (l : Lease) (reason : RecallReason) (grace : Byte) : NoticeBody :=
  .recallNotice (s.leaseHandle i) l.resource reason grace (decide (grace = 0))

/-- R74: the ACTIVE lease `l` in slot `i` has been recalled with a grace above 0. -/
structure State.LeaseRecalled (s t : State) (i : LeaseSlot) (l : Lease) (reason : RecallReason) (grace : Byte) : Prop where
  slot : t.leaseRecord i = { s.leaseRecord i with lease := some { l with
      state := .recalling reason, phase := .grace, deadline := s.now + grace.setWidth 32 } }
  box : t.box l.holder = (s.box l.holder).post s.now (s.recallNotice i l reason grace)
  entry : t.entriesOf (.lease i)
    = [⟨.lease i, some (s.leaseRecord i).incarnation, .grace, s.now + grace.setWidth 32⟩]

/-- The records that a recall with a grace above 0 reaches. -/
def Lease.recallTouches (l : Lease) (i : LeaseSlot) : Touched :=
  { leases := [i], boxes := [l.holder], owners := [.lease i] }

/-- The waiter in slot `j` stands behind the head of its resource's queue, or alone in it, so its end lets no other
waiter move. -/
structure State.LeavesQuietly (s : State) (j : WaiterSlot) (w : Waiter) : Prop where
  waiter : s.waiter j = some w
  place : (s.resource w.resource).queue = [j] ∨
    (j ∈ (s.resource w.resource).queue ∧ (s.resource w.resource).queue.head? ≠ some j)

/-- R56, R64: the waiter `w` that stood in slot `j` has ended with an outcome other than GRANTED, its client's notice
state being `box`; where it stood alone, the grant pass that followed has cleared the starved mark. -/
structure State.WaiterEnded (s t : State) (j : WaiterSlot) (w : Waiter) (o : Outcome) (box : NoticeBox) : Prop where
  slot : t.waiterRecord j = ⟨(s.waiterRecord j).incarnation + 1, some o, none⟩
  resource : t.resource w.resource = { s.resource w.resource with
      queue := (s.resource w.resource).queue.filter fun k => !decide (k = j)
      starved := (s.resource w.resource).starved && !decide ((s.resource w.resource).queue = [j]) }
  session : t.session w.client = { s.session w.client with waiterCount := (s.session w.client).waiterCount - 1 }
  box : t.box w.client = box
  entry : t.entriesOf (.waiter j) = []

/-- The records that the end of a waiter reaches when it lets no other waiter move. -/
def Waiter.endTouches (w : Waiter) (j : WaiterSlot) : Touched :=
  { resources := [w.resource], waiters := [j], sessions := [w.client], boxes := [w.client], owners := [.waiter j] }

/-- R56, steps 1 to 6: the waiter `w` that stood in slot `j` has ended with outcome `o`, its client's notice state being
`box`. -/
structure State.WaiterLeft (s t : State) (j : WaiterSlot) (w : Waiter) (o : Outcome) (box : NoticeBox) : Prop where
  slot : t.waiterRecord j = ⟨(s.waiterRecord j).incarnation + 1, some o, none⟩
  resource : t.resource w.resource = { s.resource w.resource with
      queue := (s.resource w.resource).queue.filter fun k => !decide (k = j) }
  session : t.session w.client = { s.session w.client with waiterCount := (s.session w.client).waiterCount - 1 }
  box : t.box w.client = box
  entry : t.entriesOf (.waiter j) = []

/-- R62: the holder set of resource `r`, as it stands, is compatible with a waiter of mode `m` and has room for it. -/
abbrev State.Admits (s : State) (r : ResourceId) (m : Mode) : Prop :=
  (m = .exclusive → ∀ c : Client, (s.resource r).holders[c] = none) ∧
  (m = .shared → ∀ c : Client, ∀ i ∈ (s.resource r).holders[c], ∀ l ∈ s.lease i, l.mode = .shared) ∧
  (s.resource r).holderCount < (s.resource r).config.maxShared

/-- R63: the waiter `w` in slot `j` has been granted as a lease in slot `i`: the lease record, its entry and its place in
the holder set, the GRANTED notice posted out of the waiter's reservations, the set commanded, the waiter's slot freed
with outcome GRANTED and the lease's handle, and nothing else. -/
structure State.Granted (s t : State) (j : WaiterSlot) (w : Waiter) (i : LeaseSlot) : Prop where
  lease : t.leaseRecord i = { s.leaseRecord i with lease := some ⟨w.resource, w.client, w.mode, w.urgency, .active,
      (grantInterval (s.resource w.resource).config s.now w.term).phase,
      (grantInterval (s.resource w.resource).config s.now w.term).deadline,
      (grantInterval (s.resource w.resource).config s.now w.term).trim⟩ }
  leaseEntry : t.entriesOf (.lease i) = [⟨.lease i, some (s.leaseRecord i).incarnation,
      (grantInterval (s.resource w.resource).config s.now w.term).phase.purpose,
      (grantInterval (s.resource w.resource).config s.now w.term).deadline⟩]
  resource : t.resource w.resource = { s.resource w.resource with
      holders := (s.resource w.resource).holders.set w.client (some i)
      state := if (s.resource w.resource).state = .idle then .held else (s.resource w.resource).state
      queue := (s.resource w.resource).queue.filter fun k => !decide (k = j) }
  box : t.box w.client = (s.box w.client).post s.now (.granted (s.waiterHandle j) (s.leaseHandle i) w.resource w.mode
      (grantInterval (s.resource w.resource).config s.now w.term).ends)
  gate : t.gate = { s.gate with held := s.gate.held ++ [⟨w.resource, w.client⟩] }
  slot : t.waiterRecord j = ⟨(s.waiterRecord j).incarnation + 1, some (.granted (s.leaseHandle i)), none⟩
  waiterEntry : t.entriesOf (.waiter j) = []
  session : t.session w.client = { s.session w.client with
      leaseCount := (s.session w.client).leaseCount + 1, waiterCount := (s.session w.client).waiterCount - 1 }
  frame : s.Within t
    { resources := [w.resource], leases := [i], waiters := [j], sessions := [w.client], boxes := [w.client],
      owners := [.lease i, .waiter j] }

/-- R62, R63: from `s` to `t` the waiters named have been granted one after another, each at the head of resource `r`'s
queue, admitted by the holder set as the grants before it left it, into the lowest free lease slot. -/
def State.GrantRun (r : ResourceId) : List WaiterSlot → State → State → Prop
  | [], s, t => t = s
  | j :: rest, s, t => ∃ (w : Waiter) (i : LeaseSlot) (u : State),
      (s.resource r).queue.head? = some j ∧ s.waiter j = some w ∧ s.Admits r w.mode ∧
      s.lease i = none ∧ (∀ k : LeaseSlot, k < i → s.lease k ≠ none) ∧ s.Granted u j w i ∧ State.GrantRun r rest u t

/-- R67, R72, R130: the WAIT_ENDED notice of the waiter in slot `j`. -/
def State.waitEndedNotice (s : State) (j : WaiterSlot) (w : Waiter) (reason : WaitEndReason) : NoticeBody :=
  .waitEnded (s.waiterHandle j) w.resource reason

/-- A client's notice state after WAIT_ENDED notices in this order, each consuming one of its waiter's two reservations
and the other returned (R67, R72, R131). -/
def NoticeBox.waitsEnded (b : NoticeBox) (now : Tick) (bodies : List NoticeBody) : NoticeBox :=
  bodies.foldl (fun b body => (b.post now body).giveBack 1) b

/-- The WAIT_ENDED notices for client `c` when resource `r` is taken offline, in queue order (R72). -/
def State.offlineNotices (s : State) (r : ResourceId) (c : Client) : List NoticeBody :=
  (s.resource r).queue.filterMap fun j =>
    (s.waiter j).bind fun w => if w.client = c then some (s.waitEndedNotice j w .offline) else none

/-- R72: every waiter of resource `r` has been removed with outcome OFFLINE, head first. -/
structure State.QueueRemoved (s t : State) (r : ResourceId) : Prop where
  queue : (t.resource r).queue = []
  slots : ∀ j ∈ (s.resource r).queue, t.waiterRecord j = ⟨(s.waiterRecord j).incarnation + 1, some .offline, none⟩
  entries : ∀ j ∈ (s.resource r).queue, t.entriesOf (.waiter j) = []
  sessions : ∀ c : Client, t.session c = { s.session c with
    waiterCount := (s.session c).waiterCount
      - (s.resource r).queue.countP fun j => (s.waiter j).any fun w => decide (w.client = c) }

/-- The records that the removal of resource `r`'s queue reaches, with the resource itself. -/
def State.queueTouches (s : State) (r : ResourceId) : Touched :=
  { resources := [r], waiters := (s.resource r).queue, sessions := [0, 1, 2, 3], boxes := [0, 1, 2, 3],
    owners := .resource r :: (s.resource r).queue.map .waiter }

/-- The laws that make the tables, the queues, the counts and the lines agree (R4, R15, R25, R30, R54, R111). -/
structure State.RecordLaws (s : State) : Prop where
  holders : s.HoldersAgree
  queues : s.QueuesAgree
  oneClaim : s.OneClaimLaw
  counts : s.CountLaw
  lines : s.LineLaw
  gate : s.GateLaw

/-- The laws of the notice unit and of closed sessions (R112, R131), with the records they count. -/
structure State.NoticeLaws (s : State) : Prop extends s.RecordLaws where
  reservations : s.ReservationLaw
  room : s.NoticeRoom
  closed : s.ClosedLaw

/-- The laws of the deadline list and of what owns its entries (R4, R74, R99). -/
structure State.DeadlineLaws (s : State) : Prop extends s.RecordLaws where
  entries : s.EntryLaw
  oneEach : s.OneEntryEach
  owed : s.OwedLaw
  phases : s.PhaseLaw
  settle : s.SettleLaw

/-- The laws of the resource records (section 1.4, R5, R6, R13, R38, R39, R57). -/
structure State.ResourceLaws (s : State) : Prop extends s.RecordLaws where
  resource : s.ResourceLaw
  exclusive : s.ExclusiveAlone
  marks : s.MarkLaw
  idle : s.IdleLaw
  policy : s.PolicyLaw
  config : s.ConfigLaw
  order : s.QueueOrder

/-- The laws that single blocks keep by themselves (R95, R103, R108, R126, R140, R141, R147). -/
structure State.BlockLaws (s : State) : Prop where
  timeBase : s.TimeBaseLaw
  admin : s.AdminLaw
  attention : s.AttentionLaw
  threshold : s.ThresholdLaw
  buffer : s.BufferLaw
  items : s.ItemsInOrder
  delivery : s.DeliveryLaw
  config : s.ConfigLaw

end Sys2Proof.Machine
end

