-- ==== Sys2Proof/WellFormed.lean ====
section
/-!
DEFINITION. Which commands are well formed: a transaction named PUT is received whole, one named UNKNOWN_TRANSACTION
has a selecting byte of no known value, and one named CUT_TRANSACTION is incomplete (R148, R150, R158). Every other
operand is bounded by its type. `exec` gives a meaning to ill-formed commands too (the port acts on the bytes).
-/

namespace Sys2Proof

/-- The selecting bytes the port knows (09 section 9.2). -/
def knownSelector (b : Byte) : Bool := b == 0x50 || b == 0x61 || b == 0x62 || b == 0x70

/-- A PUT's bytes are decided: the length byte is above 16, or the check byte has come in (R150). -/
def putComplete : List Byte → Bool
  | _ :: _ :: n :: rest => decide (Config.maxParams < n.toNat) || decide (n.toNat < rest.length)
  | _ => false

/-- The transaction these bytes begin is not complete, so a CS_N rise cuts it (R150, R158). -/
def cutShort : List Byte → Bool
  | [] => true
  | sel :: rest =>
    if sel == 0x50 then !putComplete rest
    else if sel == 0x61 || sel == 0x62 then decide (rest.length < 3 + Config.maxFrame)
    else false

/-- The command is one the table's row names. -/
def Instr.wellFormed : Instr → Bool
  | .put _ frame => putComplete frame
  | .unknownTransaction _ selector _ => !knownSelector selector
  | .cutTransaction _ received => cutShort received
  | _ => true

end Sys2Proof
end

