-- ==== Sys2Proof/Certificates/Slice0/Obligations.lean ====
section
/-!
DEFINITION. The statements for the provers, each a Prop about the model; OBLIGATIONS.json says in words what each states
and which rules of spec/ it comes from. The vocabulary (`Serving`, `Served`, `Refused`, `Taken`, `Frame`, the laws) is
Sys2Proof/Safety.lean's. Where a command's event arms or cancels
deadlines, or takes the owed expiry, its outcome is written `s.testHead t` or `t.deliver`: `t`, and then the list's
delivery test, which ExpiryDeliveryTakesTheHead states.
-/

open Sys2Proof Sys2Proof.Machine

/-! ### The machine's step -/

/-- One step does the command at the front of the queue on the state with the queue's rest. -/
def Obligations.StepTakesFrontCommand : Prop :=
  ∀ (c : Instr) (rest : List Instr) (s : State),
    step { s with pending := c :: rest } = exec c { s with pending := rest }

/-- Every command completes, leaves the command queue as it is, and but for the two edges of RESET_N leaves that input's
level. The model's choice: R1 and R163 speak of claims and edges that occur; that a command whose claim does not stand
completes too is assumption log 1, and that commands wait in a queue which every command keeps, DEVICE_RESET too, is log 2
and log 13. -/
def Obligations.EveryCommandCompletes : Prop :=
  ∀ (c : Instr) (s : State), ∃ t, exec c s = .next t ∧ t.pending = s.pending ∧
    (c ≠ .deviceReset → c ≠ .resetDeasserted → t.resetHeld = s.resetHeld)

/-- On an empty queue, as many cycles as the divisor has left after the prescaler make one tick, and that is what TICK
does at once (the model's choice, assumption log 3, over R95): the counter advances, and the list makes its delivery test
with the new value (R95, R103). While RESET_N is held, neither moves anything (R96). -/
def Obligations.TickIsTheRestOfTheCycles : Prop :=
  ∀ s : State, s.pending = [] → s.timeBase.prescaler < s.timeBase.divisor →
    Host.Core.run Sys2Proof.core (s.timeBase.divisor - s.timeBase.prescaler) s = exec .tick s ∧
    exec .tick s = .next (if s.resetHeld then s else
      ({ s with timeBase := { s.timeBase with prescaler := 0, counter := s.timeBase.counter + 1 } } : State).deliver)

/-! ### Checks and answers common to all requests -/

/-- R2, R113, R165: the checks that come before a kind's own refuse a request in their order, the unknown kind byte
first, and the answer is the only effect. -/
def Obligations.CommonChecksRefuse : Prop :=
  ∀ (p : Client) (q : Request) (s : State), s.offered p = some q →
    (kindOfByte q.kind = none →
      ∃ t, exec (.unknownKind p) s = .next t ∧ s.Refused t p q .unknownKind []) ∧
    (∀ k : Kind, kindOfByte q.kind = some k → q.length.toNat ≠ k.paramLength →
      ∃ t, exec (k.command p) s = .next t ∧ s.Refused t p q .badParam []) ∧
    (∀ k : Kind, kindOfByte q.kind = some k → q.length.toNat = k.paramLength → k ≠ .openSession →
      (s.session p).isOpen = false →
      ∃ t, exec (k.command p) s = .next t ∧ s.Refused t p q .noSession []) ∧
    (∀ k : Kind, kindOfByte q.kind = some k → q.length.toNat = k.paramLength → (s.session p).isOpen = true →
      k.isAdmin = true → (s.session p).admin = false →
      ∃ t, exec (k.command p) s = .next t ∧ s.Refused t p q .notPermitted [])

/-- R2: every request the engine takes produces one answer, and one that is refused (its status is neither OK nor
QUEUED) changes nothing else. -/
def Obligations.RefusedRequestChangesNothing : Prop :=
  ∀ (k : Kind) (p : Client) (q : Request) (s : State),
    s.offered p = some q → kindOfByte q.kind = some k →
    ∃ t status results, exec (k.command p) s = .next t ∧
      t.port p = Port.offerTaken { s.port p with
        inFlight := (s.port p).inFlight ++ [⟨q.stamp, q.tag, q.kind, status, s.now, results⟩] } ∧
      (status ≠ .ok → status ≠ .queued → s.Refused t p q status results)

/-- R7, R17, R18, R21, R22, R31, R85, R108, R123, R126, R141, R166: a parameter byte out of its field's range is refused
BAD_PARAM, and an admin request that finds its resource, the resources or the named session in a state its rule does not
allow is refused WRONG_STATE. -/
def Obligations.OwnChecksRefuse : Prop :=
  ∀ (k : Kind) (p : Client) (q : Request) (s : State), s.Serving p q k →
    let named := fun good : ResourceState → Prop =>
      ∃ r : ResourceId, byteAt q.params 0 = natByte r.val ∧ good (s.resource r).state
    let badParam := match k with
      | .setThreshold => 8 ≤ (byteAt q.params 0).toNat
      | .queryResource | .setOnline | .takeOffline | .clearFence => 12 ≤ (byteAt q.params 0).toNat
      | .evictClient => 4 ≤ (byteAt q.params 0).toNat
      | .setRights => 4 ≤ (byteAt q.params 0).toNat ∨ 2 ≤ (byteAt q.params 1).toNat
      | .acquire => 12 ≤ (byteAt q.params 0).toNat ∨ 2 ≤ (byteAt q.params 1).toNat ∨ 4 ≤ (byteAt q.params 6).toNat
      | .configureResource => 12 ≤ (byteAt q.params 0).toNat ∨ configAt q.params 1 = none
      | .setTimebase => (halfAt q.params 0).toNat = 0 ∨ 4096 < (halfAt q.params 0).toNat
      | .revoke => (∃ i l, s.resolveLease (handleAt 32 q.params 0) = .valid i l) ∧ 2 ≤ (byteAt q.params 2).toNat
      | _ => False
    let wrongState := match k with
      | .configureResource => (configAt q.params 1).isSome = true ∧ named (· ≠ .offline)
      | .setOnline => named (· ≠ .offline)
      | .takeOffline => named fun x => x = .offline ∨ x = .draining
      | .clearFence => ∃ r : ResourceId, byteAt q.params 0 = natByte r.val ∧ (s.resource r).state ≠ .fenced ∧
          ((s.resource r).state = .held → (s.resource r).fenceMark = false)
      | .setTimebase => 1 ≤ (halfAt q.params 0).toNat ∧ (halfAt q.params 0).toNat ≤ 4096 ∧
          ∃ r : ResourceId, (s.resource r).state ≠ .offline
      | .evictClient => ∃ c : Client, byteAt q.params 0 = natByte c.val ∧ (s.session c).isOpen = false
      | _ => False
    (badParam → ∃ t, exec (k.command p) s = .next t ∧ s.Refused t p q .badParam []) ∧
    (wrongState → ∃ t, exec (k.command p) s = .next t ∧ s.Refused t p q .wrongState [])

/-! ### Sessions and rights -/

/-- R114, R115: OPEN_SESSION on a CLOSED context opens a session; on an OPEN one it is answered SESSION_OPEN and changes
nothing. -/
def Obligations.OpenSessionOpensOrReports : Prop :=
  ∀ (p : Client) (q : Request) (s : State), s.Serving p q .openSession →
    let x := s.session p
    (x.isOpen = false → ∃ t, exec (.openSession p) s = .next t ∧
      s.Served t p q .ok (natByte p.val :: halfBytes (x.epoch + 1) ++ [yesNo x.admin, x.lastEnd.code])
        { sessions := [p], boxes := [p] } [] ∧
      t.session p = { x with isOpen := true, epoch := x.epoch + 1, threshold := 0 } ∧
      t.box p = { s.box p with seq := 0, threshold := 0, attention := !(s.box p).queue.isEmpty }) ∧
    (x.isOpen = true → ∃ t, exec (.openSession p) s = .next t ∧
      s.Refused t p q .sessionOpen (natByte p.val :: halfBytes x.epoch ++ [yesNo x.admin]))

/-- R141: SET_THRESHOLD gives the context's threshold and the notice unit's copy the new value, and the attention line
is evaluated again. -/
def Obligations.SetThresholdSets : Prop :=
  ∀ (p : Client) (q : Request) (s : State) (v : Fin 8), s.Serving p q .setThreshold → byteAt q.params 0 = natByte v.val →
    ∃ t, exec (.setThreshold p) s = .next t ∧
      s.Served t p q .ok [natByte v.val, natByte (s.session p).threshold.val] { sessions := [p], boxes := [p] } [] ∧
      t.session p = { s.session p with threshold := v } ∧
      t.box p = { s.box p with threshold := v, attention := (s.box p).queue.any fun n => decide (v.val < n.body.level) }

/-- R126: SET_RIGHTS sets the named client's right, but never removes the last one. -/
def Obligations.SetRightsKeepsAnAdmin : Prop :=
  ∀ (p : Client) (q : Request) (s : State) (c : Client) (v : Bool), s.Serving p q .setRights →
    byteAt q.params 0 = natByte c.val → byteAt q.params 1 = yesNo v →
    ((v = false ∧ (s.session c).admin = true ∧ ∀ d : Client, d ≠ c → (s.session d).admin = false) →
      ∃ t, exec (.setRights p) s = .next t ∧ s.Refused t p q .lastAdmin []) ∧
    (¬ (v = false ∧ (s.session c).admin = true ∧ ∀ d : Client, d ≠ c → (s.session d).admin = false) →
      ∃ t set, exec (.setRights p) s = .next t ∧
        s.Served t p q .ok [clientSetByte set] { sessions := [c] } [] ∧
        t.session c = { s.session c with admin := v } ∧
        (∀ d : Client, set.getLsbD d.val = (t.session d).admin) ∧ set ≠ 0)

/-- R117, R120, R121, R123: CLOSE_SESSION, EVICT_CLIENT and the teardown claim of a port reset end the session whole,
from every state whose tables name each other as R4, R25, R30 and R111 say and whose lines follow the holders (R15). The
answer counts the leases and the waiters. Where no resource is preemptible, no lease is recalled on the way, and every
lease and waiter of the client ends with the cause and the outcome of the session's end. -/
def Obligations.SessionEndLeavesNothing : Prop :=
  ∀ (p : Client) (q : Request) (s : State),
    s.HoldersAgree → s.QueuesAgree → s.OneClaimLaw → s.CountLaw → s.LineLaw →
    let quiet := ∀ r : ResourceId, (s.resource r).config.preemptible = false
    let counted := fun (t : State) (c : Client) => ∃ n : Nat,
      (t.port p).inFlight = (s.port p).inFlight
        ++ [⟨q.stamp, q.tag, q.kind, .ok, s.now, [natByte n, natByte (s.session c).waiterCount]⟩] ∧
      (quiet → n = (s.session c).leaseCount)
    (s.Serving p q .closeSession → ∃ t, exec (.closeSession p) s = .next t ∧ s.SessionLeft t p .closed ∧ counted t p ∧
      (quiet → s.SessionHistory t p .cancelled .released)) ∧
    (∀ c : Client, s.Serving p q .evictClient → byteAt q.params 0 = natByte c.val → (s.session c).isOpen = true →
      ∃ t, exec (.evictClient p) s = .next t ∧ s.SessionLeft t c .evicted ∧ counted t c ∧
        (quiet → s.SessionHistory t c .tornDown .tornDown)) ∧
    ((s.port p).offer = some .teardown → (s.session p).isOpen = true →
      ∃ t, exec (.teardownClaim p) s = .next t ∧ s.SessionLeft t p .portReset ∧
        (t.port p).inFlight = (s.port p).inFlight ∧ (quiet → s.SessionHistory t p .tornDown .tornDown))

/-! ### Leases -/

/-- R35, R40: an ACQUIRE whose immediate grant is allowed, with a slot and a notice entry free, is granted at once. -/
def Obligations.AcquireGrantsAtOnce : Prop :=
  ∀ (p : Client) (q : Request) (s : State) (a : AcquireParams) (i : LeaseSlot),
    s.Serving p q .acquire → acquireParams q.params = some a → s.admission p a = none →
    s.immediateAllowed a = true → s.freeLeaseSlot = some i → (s.box p).used < 16 →
    let iv := grantInterval (s.resource a.resource).config s.now a.term
    let l : Lease := ⟨a.resource, p, a.mode, a.urgency, .active, iv.phase, iv.deadline, iv.trim⟩
    ∃ t, exec (.acquire p) s = .next (s.testHead t) ∧
      s.Served t p q .ok ((s.leaseHandle i).bytes ++ [a.mode.code] ++ tickBytes iv.ends ++ halfBytes iv.length)
        { resources := [a.resource], leases := [i], sessions := [p], boxes := [p], owners := [.lease i] }
        [.set ⟨a.resource, p⟩] ∧
      t.leaseRecord i = { s.leaseRecord i with lease := some l } ∧
      t.resource a.resource = { s.resource a.resource with
        holders := (s.resource a.resource).holders.set p (some i), state := .held } ∧
      t.session p = { s.session p with leaseCount := (s.session p).leaseCount + 1 } ∧
      t.box p = { s.box p with reservations := (s.box p).reservations + 1 } ∧
      t.entriesOf (.lease i) = [s.leaseEntry i l] ∧
      t.line a.resource p = true

/-- R31 to R34, R58: an ACQUIRE that is not granted and does not queue is refused by the first check that fails. -/
def Obligations.AcquireRefusals : Prop :=
  ∀ (p : Client) (q : Request) (s : State) (a : AcquireParams), s.Serving p q .acquire → acquireParams q.params = some a →
    let x := s.resource a.resource
    let immediate := x.queue = [] ∧ x.fenceMark = false ∧
      (x.state = .idle ∨ (x.state = .held ∧ a.mode = .shared ∧ x.holderCount < x.config.maxShared ∧
        ∀ c : Client, ∀ i ∈ x.holders[c], ∀ l ∈ s.lease i, l.mode = .shared))
    let full : Prop := ∀ i : LeaseSlot, s.lease i ≠ none
    let noWaiterSlot : Prop := ∀ j : WaiterSlot, s.waiter j ≠ none
    let duplicate : Prop := x.holders[p] ≠ none ∨ ∃ j ∈ x.queue, ∃ w ∈ s.waiter j, w.client = p
    let refused := fun status => ∃ t, exec (.acquire p) s = .next t ∧ s.Refused t p q status []
    let badParam := (a.mode = .shared ∧ x.config.sharing = .exclusiveOnly) ∨
      (x.config.policy = .term ∧ x.config.maxTerm < a.term)
    let notAllowed := x.config.allowed.getLsbD p.val = false
    let offline := x.state = .offline ∨ x.state = .draining
    let admitted := ¬ badParam ∧ ¬ notAllowed ∧ ¬ offline ∧ ¬ duplicate
    (badParam → refused .badParam) ∧
    (¬ badParam → notAllowed → refused .notAllowed) ∧
    (¬ badParam → ¬ notAllowed → offline → refused .offline) ∧
    (¬ badParam → ¬ notAllowed → ¬ offline → duplicate → refused .duplicate) ∧
    (admitted → immediate → full → a.waitLimit = 0 → refused .tableFull) ∧
    (admitted → immediate → ¬ full → 16 ≤ (s.box p).used → refused .noticeSpace) ∧
    (admitted → ¬ immediate → a.waitLimit = 0 →
      refused (if x.state = .fenced ∨ (x.state = .held ∧ x.fenceMark = true) then .fenced else .busy)) ∧
    (admitted → (immediate → full) → a.waitLimit ≠ 0 → noWaiterSlot → refused .poolFull) ∧
    (admitted → (immediate → full) → a.waitLimit ≠ 0 → ¬ noWaiterSlot → 14 < (s.box p).used → refused .noticeSpace)

/-- R57, R59, R60: an admitted ACQUIRE that cannot be granted and will wait is enqueued behind every waiter of its urgency
or above. At the head of its queue, the preemption check for it runs in the same event (R60, R81; PreemptionCheckSelects
and WorkItemsTakeTheirSteps say what that comes to); where it recalls nobody (the waiter is not at the head, or the
resource is not preemptible), nothing else changes. -/
def Obligations.AcquireQueues : Prop :=
  ∀ (p : Client) (q : Request) (s : State) (a : AcquireParams) (j : WaiterSlot),
    s.Serving p q .acquire → acquireParams q.params = some a → s.admission p a = none →
    (s.immediateAllowed a = true → s.freeLeaseSlot = none) → a.waitLimit ≠ 0 →
    s.freeWaiterSlot = some j → (s.box p).used ≤ 14 → s.QueuesAgree → s.QueueOrder →
    let x := s.resource a.resource
    let ahead := x.queue.filter fun k => (s.waiter k).any fun w => decide (a.urgency ≤ w.urgency)
    let behind := x.queue.filter fun k => (s.waiter k).any fun w => decide (w.urgency < a.urgency)
    let results := (s.waiterHandle j).bytes ++ [natByte ahead.length]
    let touched : Touched :=
      { resources := [a.resource], waiters := [j], sessions := [p], boxes := [p], owners := [.waiter j] }
    let enqueued := fun t : State =>
      t.waiterRecord j = { s.waiterRecord j with
        waiter := some ⟨a.resource, p, a.mode, a.urgency, a.term, s.now + a.waitLimit.setWidth 32⟩ } ∧
      t.resource a.resource = { x with
        queue := ahead ++ [j] ++ behind, starved := x.starved || s.immediateAllowed a } ∧
      t.session p = { s.session p with waiterCount := (s.session p).waiterCount + 1 } ∧
      t.box p = { s.box p with reservations := (s.box p).reservations + 2 } ∧
      t.entriesOf (.waiter j)
        = [⟨.waiter j, some (s.waiterRecord j).incarnation, .wait, s.now + a.waitLimit.setWidth 32⟩]
    ((ahead ≠ [] ∨ x.config.preemptible = false) →
      ∃ t, exec (.acquire p) s = .next (s.testHead t) ∧ s.Served t p q .queued results touched [] ∧ enqueued t) ∧
    (ahead = [] → ∃ u, s.Inner u touched [] [] ∧ enqueued u ∧
      exec (.acquire p) s
        = .next (s.testHead ((u.run [.check a.resource]).endEvent.answer p q ⟨.queued, results⟩)))

/-- R36 to R40, R89: the phase, deadline and trim accumulator that a grant or a renewal fixes, with the deadline and
term results; a later slice lasts slice_ticks or, when sixteen sixteenths have gathered, one tick more, and sixteen
consecutive slices bring the accumulator back and last sixteen times slice_ticks plus slice_trim. -/
def Obligations.TermsAndSlices : Prop :=
  ∀ (c : ResourceConfig) (now : Tick) (term : Half) (acc : Fin 16),
    let T : Half := if term = 0 then c.defaultTerm else term
    let warned := 0 < c.warnLead ∧ c.warnLead < T
    let sixteen := (List.range 16).foldl (fun (x : Fin 16 × Tick) _ =>
      ((nextSlice c x.1).1, x.2 + (nextSlice c x.1).2)) (acc, 0)
    (c.policy = .term → grantInterval c now term = termInterval c now term) ∧
    (warned → termInterval c now term
      = ⟨.warn, now + T.setWidth 32 - c.warnLead.setWidth 32, 0, now + T.setWidth 32, T⟩) ∧
    (¬ warned → termInterval c now term = ⟨.expire, now + T.setWidth 32, 0, now + T.setWidth 32, T⟩) ∧
    (c.policy = .sliced → grantInterval c now term
      = ⟨.slice, now + c.sliceTicks.setWidth 32, c.sliceTrim, now + c.sliceTicks.setWidth 32, c.sliceTicks⟩) ∧
    nextSlice c acc = (if acc.val + c.sliceTrim.val < 16 then (acc + c.sliceTrim, c.sliceTicks.setWidth 32)
      else (acc + c.sliceTrim, c.sliceTicks.setWidth 32 + 1)) ∧
    sixteen = (acc, 16 * c.sliceTicks.setWidth 32 + BitVec.ofNat 32 c.sliceTrim.val)

/-- R28, R55: what the handle of a lease or of a waiter comes to, the first case that applies. -/
def Obligations.HandlesResolve : Prop :=
  ∀ (s : State) (c : Client) (inc slot : Byte),
    (32 ≤ slot.toNat → s.resolveLease (handleOf 32 inc slot) = .bad) ∧
    (24 ≤ slot.toNat → s.resolveWaiter c (handleOf 24 inc slot) = .bad) ∧
    (∀ i : LeaseSlot, slot = natByte i.val →
      (∀ l, s.lease i = some l → inc = (s.leaseRecord i).incarnation →
        s.resolveLease (handleOf 32 inc slot) = .valid i l ∧
        s.resolveOwnLease c (handleOf 32 inc slot) = if l.holder = c then .valid i l else .bad) ∧
      (∀ e, inc + 1 = (s.leaseRecord i).incarnation → (s.leaseRecord i).prevEnd = some e →
        s.resolveLease (handleOf 32 inc slot) = .gone e ∧ s.resolveOwnLease c (handleOf 32 inc slot) = .gone e) ∧
      ((inc = (s.leaseRecord i).incarnation → s.lease i = none) →
        (inc + 1 = (s.leaseRecord i).incarnation → (s.leaseRecord i).prevEnd = none) →
        s.resolveLease (handleOf 32 inc slot) = .bad)) ∧
    (∀ j : WaiterSlot, slot = natByte j.val →
      (∀ w, s.waiter j = some w → inc = (s.waiterRecord j).incarnation →
        s.resolveWaiter c (handleOf 24 inc slot) = if w.client = c then .valid j w else .bad) ∧
      (∀ h, inc + 1 = (s.waiterRecord j).incarnation → (s.waiterRecord j).prevOutcome = some (.granted h) →
        s.resolveWaiter c (handleOf 24 inc slot) = .granted h) ∧
      (inc + 1 = (s.waiterRecord j).incarnation →
        ((s.waiterRecord j).prevOutcome = some .timedOut → s.resolveWaiter c (handleOf 24 inc slot) = .ended 0x01) ∧
        ((s.waiterRecord j).prevOutcome = some .offline → s.resolveWaiter c (handleOf 24 inc slot) = .ended 0x02) ∧
        ((s.waiterRecord j).prevOutcome = some .cancelled → s.resolveWaiter c (handleOf 24 inc slot) = .ended 0x03) ∧
        ((s.waiterRecord j).prevOutcome = some .tornDown → s.resolveWaiter c (handleOf 24 inc slot) = .ended 0x04)) ∧
      ((inc = (s.waiterRecord j).incarnation → s.waiter j = none) →
        (inc + 1 = (s.waiterRecord j).incarnation → (s.waiterRecord j).prevOutcome = none) →
        s.resolveWaiter c (handleOf 24 inc slot) = .bad))

/-- R28, R43, R46, R49, R51, R55, R85: a request whose handle names no lease or waiter of the client's is answered GONE
with the end cause, ALREADY_GRANTED with the lease, or BAD_HANDLE; one whose lease does not fit it is refused as its
rule says. Each changes nothing. -/
def Obligations.HandleRequestsRefused : Prop :=
  ∀ (k : Kind) (p : Client) (q : Request) (s : State), s.Serving p q k →
    let refused := fun status results => ∃ t, exec (k.command p) s = .next t ∧ s.Refused t p q status results
    let own := s.resolveOwnLease p (handleAt 32 q.params 0)
    let any := s.resolveLease (handleAt 32 q.params 0)
    let waiting := s.resolveWaiter p (handleAt 24 q.params 0)
    ((k = .renew ∨ k = .release ∨ k = .downgrade ∨ k = .queryLease) →
      (∀ e, own = .gone e → refused .gone [e.code]) ∧ (own = .bad → refused .badHandle [])) ∧
    (k = .revoke → (∀ e, any = .gone e → refused .gone [e.code]) ∧ (any = .bad → refused .badHandle [])) ∧
    (k = .cancel → (∀ h, waiting = .granted h → refused .alreadyGranted h.bytes) ∧
      (∀ b, waiting = .ended b → refused .badHandle [b]) ∧ (waiting = .bad → refused .badHandle [])) ∧
    ∀ (i : LeaseSlot) (l : Lease),
      let cfg := (s.resource l.resource).config
      (k = .renew → own = .valid i l →
        (cfg.policy = .sliced → refused .notPermitted []) ∧
        (cfg.policy = .term → l.state ≠ .active → refused .tooLate []) ∧
        (cfg.policy = .term → l.state = .active → cfg.maxTerm < halfAt q.params 2 → refused .badParam [])) ∧
      (k = .downgrade → own = .valid i l →
        (l.state ≠ .active → refused .tooLate []) ∧
        (l.state = .active → l.mode = .shared → refused .wrongState []) ∧
        (l.state = .active → l.mode = .exclusive → cfg.sharing = .exclusiveOnly → refused .notPermitted [])) ∧
      (k = .revoke → any = .valid i l → byteAt q.params 2 = 0x00 → l.state ≠ .active → refused .alreadyRecalling [])

/-- R44: a RENEW that passes its checks gives the lease a new term from its taken tick. -/
def Obligations.RenewFixesNewTerm : Prop :=
  ∀ (p : Client) (q : Request) (s : State) (i : LeaseSlot) (l : Lease), s.Serving p q .renew →
    s.resolveOwnLease p (handleAt 32 q.params 0) = .valid i l →
    (s.resource l.resource).config.policy = .term → l.state = .active →
    halfAt q.params 2 ≤ (s.resource l.resource).config.maxTerm →
    let iv := termInterval (s.resource l.resource).config s.now (halfAt q.params 2)
    let l' : Lease := { l with phase := iv.phase, deadline := iv.deadline }
    ∃ t, exec (.renew p) s = .next (s.testHead t) ∧
      s.Served t p q .ok (tickBytes iv.ends ++ halfBytes iv.length) { leases := [i], owners := [.lease i] } [] ∧
      t.leaseRecord i = { s.leaseRecord i with lease := some l' } ∧
      t.entriesOf (.lease i) = [s.leaseEntry i l']

/-- R9 to R11, R27, R46, R47, R78, R79: a RELEASE ends the client's lease cleanly, and a current GRACE expiry cuts its
lease; said whole where nobody waits for the resource and no resource is starved. -/
def Obligations.LeasesEnd : Prop :=
  ∀ (s : State) (i : LeaseSlot) (l : Lease), s.EndsAlone i l →
    (∀ (p : Client) (q : Request), s.Serving p q .release →
      s.resolveOwnLease p (handleAt 32 q.params 0) = .valid i l →
      ∃ t, exec (.release p) s = .next (s.testHead t) ∧
        s.Served t p q .ok [] (l.endTouches i) [.cut ⟨l.resource, p⟩] ∧
        s.LeaseEnded t i l .released (if l.state = .active then (s.box p).oneReturned else s.box p)) ∧
    (∀ e : Entry, s.deadlines.owed = some e → e.owner = .lease i → e.purpose = .grace → s.Current e →
      l.state ≠ .active →
      ∃ t, exec .graceExpiry s = .next t.deliver ∧
        s.Taken t (l.endTouches i) [.cut ⟨l.resource, l.holder⟩] ∧
        s.LeaseEnded t i l .forced (s.box l.holder))

/-- R50: a DOWNGRADE that passes its checks makes the lease SHARED; said whole where nobody waits for the resource. -/
def Obligations.DowngradeSharesTheLease : Prop :=
  ∀ (p : Client) (q : Request) (s : State) (i : LeaseSlot) (l : Lease), s.Serving p q .downgrade →
    s.resolveOwnLease p (handleAt 32 q.params 0) = .valid i l → l.state = .active → l.mode = .exclusive →
    (s.resource l.resource).config.sharing = .sharedAllowed → (s.resource l.resource).queue = [] →
    ∃ t, exec (.downgrade p) s = .next t ∧
      s.Served t p q .ok [natByte (s.resource l.resource).holderCount]
        { leases := [i], resources := [l.resource] } [] ∧
      t.leaseRecord i = { s.leaseRecord i with lease := some { l with mode := .shared } } ∧
      t.resource l.resource = { s.resource l.resource with starved := false }

/-- R56, R67, R69: a CANCEL ends the client's waiter and returns its two reservations, and a current WAIT expiry posts
WAIT_ENDED and returns the other; said whole where no other waiter of the queue moves to the head. -/
def Obligations.WaitersEnd : Prop :=
  ∀ (s : State) (j : WaiterSlot) (w : Waiter), s.LeavesQuietly j w →
    (∀ (p : Client) (q : Request), s.Serving p q .cancel →
      s.resolveWaiter p (handleAt 24 q.params 0) = .valid j w →
      ∃ t, exec (.cancel p) s = .next (s.testHead t) ∧
        s.Served t p q .ok [] (w.endTouches j) [] ∧
        s.WaiterEnded t j w .cancelled { s.box p with reservations := (s.box p).reservations - 2 }) ∧
    (∀ e : Entry, s.deadlines.owed = some e → e.owner = .waiter j → s.Current e →
      ∃ t, exec .waitExpiry s = .next t.deliver ∧
        s.Taken t (w.endTouches j) [] ∧
        s.WaiterEnded t j w .timedOut ((s.box w.client).waitsEnded s.now [s.waitEndedNotice j w .timedOut]))

/-- R85: a REVOKE of an ACTIVE lease recalls it with the resource's grace, or, with immediate yes or grace 0, cuts it in
its own event; a REVOKE with immediate yes of a RECALLING lease cuts it. Cuts are said whole where they set off nothing
beyond themselves. -/
def Obligations.RevokeRecallsOrCuts : Prop :=
  ∀ (p : Client) (q : Request) (s : State) (i : LeaseSlot) (l : Lease) (immediate : Bool), s.Serving p q .revoke →
    s.resolveLease (handleAt 32 q.params 0) = .valid i l → byteAt q.params 2 = yesNo immediate →
    let grace := (s.resource l.resource).config.grace
    (l.state = .active → immediate = false → grace ≠ 0 →
      ∃ t, exec (.revoke p) s = .next (s.testHead t) ∧
        s.Served t p q .ok (0x01 :: tickBytes (s.now + grace.setWidth 32)) (l.recallTouches i) [] ∧
        s.LeaseRecalled t i l .revoked grace) ∧
    (l.state = .active → (immediate = true ∨ grace = 0) → s.EndsAlone i l →
      ∃ t, exec (.revoke p) s = .next (s.testHead t) ∧
        s.Served t p q .ok (0x02 :: tickBytes 0) (l.endTouches i) [.cut ⟨l.resource, l.holder⟩] ∧
        s.LeaseEnded t i l .forced ((s.box l.holder).post s.now (s.recallNotice i l .revoked 0))) ∧
    (l.state ≠ .active → immediate = true → s.EndsAlone i l →
      ∃ t, exec (.revoke p) s = .next (s.testHead t) ∧
        s.Served t p q .ok (0x02 :: tickBytes 0) (l.endTouches i) [.cut ⟨l.resource, l.holder⟩] ∧
        s.LeaseEnded t i l .forced (s.box l.holder))

/-! ### The engine's shared steps -/

/-- R74, R75, R76: the recall of an ACTIVE lease with a grace above 0, with grace 0, and of a RECALLING lease. -/
def Obligations.RecallStep : Prop :=
  ∀ (s : State) (i : LeaseSlot) (l : Lease) (reason : RecallReason) (grace : Byte), s.lease i = some l →
    (l.state = .active → grace ≠ 0 →
      (doWork (.recallLease i reason grace) s).2 = [] ∧
      s.LeaseRecalled (doWork (.recallLease i reason grace) s).1 i l reason grace ∧
      s.Frame (doWork (.recallLease i reason grace) s).1 (l.recallTouches i)) ∧
    (l.state = .active → grace = 0 →
      (doWork (.recallLease i reason grace) s).2 = [.endLease i .forced] ∧
      (doWork (.recallLease i reason grace) s).1.lease i = some { l with state := .recalling reason } ∧
      (doWork (.recallLease i reason grace) s).1.box l.holder = (s.box l.holder).post s.now (s.recallNotice i l reason 0) ∧
      s.Frame (doWork (.recallLease i reason grace) s).1 { leases := [i], boxes := [l.holder] }) ∧
    (l.state ≠ .active → doWork (.recallLease i reason grace) s = (s, []))

/-- R74, R76: a lease that has entered RECALLING never returns to ACTIVE, and it is recalled once. Whatever the command, a
RECALLING lease whose slot is not freed keeps its state with the first recall reason, its phase and its deadline, and all
else of its record. The premise is the law that RECALLING leases are in phase GRACE (R74), which StepKeepsDeadlineLaws
keeps; a freed slot has another incarnation (R27). -/
def Obligations.RecallingNeverReturns : Prop :=
  ∀ (s t : State) (i : LeaseSlot) (l l' : Lease), s.PhaseLaw → step s = .next t →
    s.lease i = some l → l.state ≠ .active → t.lease i = some l' →
    (t.leaseRecord i).incarnation = (s.leaseRecord i).incarnation → l' = l

/-- R81, R82: the preemption check for the head of a queue recalls, in ascending client number, exactly the ACTIVE
leases of strictly lower urgency that are incompatible with the head, on a preemptible resource. -/
def Obligations.PreemptionCheckSelects : Prop :=
  ∀ (s : State) (r : ResourceId) (j : WaiterSlot) (rest : List WaiterSlot) (w : Waiter),
    (s.resource r).queue = j :: rest → s.waiter j = some w → s.HoldersAgree →
    ∃ slots : List LeaseSlot,
      doWork (.check r) s = (s, slots.map fun i => .recallLease i .preempted (s.resource r).config.grace) ∧
      (∀ i : LeaseSlot, i ∈ slots ↔ (s.resource r).config.preemptible = true ∧ ∃ l ∈ s.lease i,
        l.resource = r ∧ l.state = .active ∧ l.urgency < w.urgency ∧ (w.mode = .exclusive ∨ l.mode = .exclusive)) ∧
      slots.Pairwise (fun i i' => ∀ l ∈ s.lease i, ∀ l' ∈ s.lease i', l.holder < l'.holder)

/-- R62, R63, R64: on a resource in IDLE or HELD with its fence mark clear, a grant pass grants a run of waiters from the
head, each of which the holder set admits as the grants before it left it, and stops at the first that fails
compatibility, room or a free slot; on any other it grants nobody. Then the starved mark says whether it stopped for want
of a slot, and when it granted and left a queue, the preemption check for the new head follows. -/
def Obligations.GrantPassTakesAPrefix : Prop :=
  ∀ (s : State) (r : ResourceId), s.QueuesAgree →
    let x := s.resource r
    let canGrant := (x.state = .idle ∨ x.state = .held) ∧ x.fenceMark = false
    ∃ (granted rest : List WaiterSlot) (u : State) (starved : Bool),
      x.queue = granted ++ rest ∧ s.GrantRun r granted u ∧ (u.resource r).queue = rest ∧
      doWork (.pass r) s = (u.setResource r { u.resource r with starved := starved },
        if granted ≠ [] ∧ rest ≠ [] then [.check r] else []) ∧
      (¬ canGrant → granted = [] ∧ starved = false) ∧
      (rest = [] → starved = false) ∧
      (canGrant → ∀ j ∈ rest.head?, ∀ w ∈ s.waiter j,
        ¬ (u.Admits r w.mode ∧ ∃ i : LeaseSlot, u.lease i = none) ∧
        (starved = true ↔ u.Admits r w.mode ∧ ∀ i : LeaseSlot, u.lease i ≠ none))

/-- R9 to R11, R15, R27, R56, R65, R73, R117, R120: what the other items of an event's work do, each with what it sets off:
the end of a lease, from the cut of its line to its resource's own step, which sets off the grant pass where the resource
is left HELD or IDLE, then the freeing of the slot, then the passes of the starved resources; the freeing of a slot; the
passes of the starved resources, in ascending index; the end of a client's lease on a resource; and the removal of a
client's waiter from a resource's queue, which sets off the preemption check and the grant pass where it was the head.
Three points are the model's: a cut drops a held-back set of its line (assumption log 10, DEDUCED), each starved mark is
read at its resource's turn (log 11, DEDUCED), and a lease that does not stand in its resource's holder set is not ended
(log 15, DESIGN CHOICE). -/
def Obligations.WorkItemsTakeTheirSteps : Prop :=
  ∀ s : State,
    (∀ (i : LeaseSlot) (l : Lease) (cause : EndCause), s.lease i = some l →
      let x := s.resource l.resource
      let y := x.afterEnd l.holder cause s.now
      let t := (doWork (.endLease i cause) s).1
      (x.holders[l.holder] = some i → x.state = .held ∨ x.state = .draining →
        s.Within t { resources := [l.resource], owners := [.resource l.resource] } ∧
        t.resource l.resource = y ∧
        t.gate = ⟨setLine s.gate.lines ⟨l.resource, l.holder⟩ false,
          s.gate.held.filter fun k => !decide (k = ⟨l.resource, l.holder⟩),
          s.gate.driven ++ [.cut ⟨l.resource, l.holder⟩]⟩ ∧
        t.entriesOf (.resource l.resource) = (if y.state = .settling then
          [⟨.resource l.resource, none, .settle, s.now + x.config.settle.setWidth 32⟩]
          else s.entriesOf (.resource l.resource)) ∧
        (doWork (.endLease i cause) s).2 = (if y.state = .held ∨ y.state = .idle then [.pass l.resource] else [])
          ++ [.freeSlot i cause, .starvedFrom 0]) ∧
      (x.holders[l.holder] ≠ some i → doWork (.endLease i cause) s = (s, []))) ∧
    (∀ (i : LeaseSlot) (l : Lease) (cause : EndCause), s.lease i = some l →
      (s.resource l.resource).holders[l.holder] ≠ some i →
      let t := (doWork (.freeSlot i cause) s).1
      (doWork (.freeSlot i cause) s).2 = [] ∧
      s.Within t { leases := [i], sessions := [l.holder], boxes := [l.holder], owners := [.lease i] } ∧
      t.gate = s.gate ∧
      t.leaseRecord i = ⟨(s.leaseRecord i).incarnation + 1, some cause, none⟩ ∧
      t.session l.holder = { s.session l.holder with leaseCount := (s.session l.holder).leaseCount - 1 } ∧
      t.box l.holder = (if l.state = .active then (s.box l.holder).oneReturned else s.box l.holder) ∧
      t.entriesOf (.lease i) = []) ∧
    (∀ index : Nat,
      ((∀ r : ResourceId, index ≤ r.val → (s.resource r).starved = false) → doWork (.starvedFrom index) s = (s, [])) ∧
      (∀ r : ResourceId, index ≤ r.val → (s.resource r).starved = true →
        (∀ k : ResourceId, index ≤ k.val → k < r → (s.resource k).starved = false) →
        doWork (.starvedFrom index) s = (s, [.pass r, .starvedFrom (r.val + 1)]))) ∧
    (∀ (r : ResourceId) (c : Client) (cause : EndCause),
      ((s.resource r).holders[c] = none → doWork (.endHolding r c cause) s = (s, [])) ∧
      (∀ i : LeaseSlot, (s.resource r).holders[c] = some i →
        doWork (.endHolding r c cause) s = (s, [.endLease i cause]))) ∧
    (∀ (r : ResourceId) (c : Client) (o : Outcome), s.QueuesAgree → s.OneClaimLaw →
      ((∀ j : WaiterSlot, ¬ s.waitsIn r c j) → doWork (.removeWaiting r c o) s = (s, [])) ∧
      (∀ (j : WaiterSlot) (w : Waiter), s.waiter j = some w → w.resource = r → w.client = c →
        let t := (doWork (.removeWaiting r c o) s).1
        s.Within t (w.endTouches j) ∧ t.gate = s.gate ∧
        s.WaiterLeft t j w o { s.box c with reservations := (s.box c).reservations - 2 } ∧
        (doWork (.removeWaiting r c o) s).2
          = if (s.resource r).queue.head? = some j then [.check r, .pass r] else []))

/-- The work of one event is done in order and comes to its end: an item is followed by what it sets off before what stood
behind it, and whatever twelve or fewer items the event begins with, more fuel changes nothing (the model's own bound,
assumption log 8; R1 finishes an event within itself, R82 and R117 each recall and each lease's end before the next). -/
def Obligations.EngineWorkEnds : Prop :=
  (∀ (s : State) (work : List Work) (n : Nat), work.length ≤ 12 →
    runWork (engineFuel + n) work s = s.run work) ∧
  (∀ s : State, s.run [] = s) ∧
  (∀ (s : State) (w : Work), s.run [w] = (doWork w s).1.run (doWork w s).2) ∧
  (∀ (s : State) (first next : List Work), first.length + next.length ≤ 12 →
    s.run (first ++ next) = (s.run first).run next)

/-! ### Expiries -/

/-- R41, R134: a current WARN expiry posts a WARNING with the ticks left to the term end, or drops it where the client's
queue has no room, and the lease enters phase EXPIRE in either case. R90: a current SLICE expiry with nobody waiting gives
the lease its next slice, counted from the expiry's due tick. -/
def Obligations.WarnAndSliceExpiriesGoOn : Prop :=
  ∀ (s : State) (e : Entry) (i : LeaseSlot) (l : Lease), s.deadlines.owed = some e → e.owner = .lease i →
    s.Current e → s.lease i = some l →
    let x := s.resource l.resource
    (e.purpose = .warn →
      let ends := e.due + x.config.warnLead.setWidth 32
      let left : Half := if (s.now - ends).toNat < 2 ^ 31 then 0 else (ends - s.now).setWidth 16
      let l' : Lease := { l with phase := .expire, deadline := ends }
      ∃ t, exec .warnExpiry s = .next t.deliver ∧
        s.Taken t { leases := [i], boxes := [l.holder], owners := [.lease i] } [] ∧
        t.leaseRecord i = { s.leaseRecord i with lease := some l' } ∧
        t.entriesOf (.lease i) = [s.leaseEntry i l'] ∧
        ((s.box l.holder).used < 16 →
          t.box l.holder = (s.box l.holder).append s.now (.warning (s.leaseHandle i) l.resource left)) ∧
        (16 ≤ (s.box l.holder).used → t.box l.holder = { s.box l.holder with warnLost := true })) ∧
    (e.purpose = .slice → x.queue = [] →
      let slice := nextSlice x.config l.trim
      let l' : Lease := { l with trim := slice.1, deadline := e.due + slice.2 }
      ∃ t, exec .sliceExpiry s = .next t.deliver ∧
        s.Taken t { leases := [i], owners := [.lease i] } [] ∧
        t.leaseRecord i = { s.leaseRecord i with lease := some l' } ∧
        t.entriesOf (.lease i) = [⟨.lease i, some (s.leaseRecord i).incarnation, .slice, e.due + slice.2⟩])

/-- R42, R74, R75, R91: a current EXPIRE expiry recalls its lease EXPIRED, and a current SLICE expiry with waiters in the
queue recalls it SLICE_END, its grace counted from the taken tick; an EXPIRE with grace 0 cuts, said whole where the cut
sets off nothing beyond itself. -/
def Obligations.ExpiriesRecall : Prop :=
  ∀ (s : State) (e : Entry) (i : LeaseSlot) (l : Lease), s.deadlines.owed = some e → e.owner = .lease i → s.Current e →
    s.lease i = some l → l.state = .active →
    let x := s.resource l.resource
    (e.purpose = .expire → x.config.grace ≠ 0 →
      ∃ t, exec .expireExpiry s = .next t.deliver ∧ s.Taken t (l.recallTouches i) [] ∧
        s.LeaseRecalled t i l .expired x.config.grace) ∧
    (e.purpose = .expire → x.config.grace = 0 → s.EndsAlone i l →
      ∃ t, exec .expireExpiry s = .next t.deliver ∧ s.Taken t (l.endTouches i) [.cut ⟨l.resource, l.holder⟩] ∧
        s.LeaseEnded t i l .forced ((s.box l.holder).post s.now (s.recallNotice i l .expired 0))) ∧
    (e.purpose = .slice → x.queue ≠ [] → x.config.grace ≠ 0 →
      ∃ t, exec .sliceExpiry s = .next t.deliver ∧ s.Taken t (l.recallTouches i) [] ∧
        s.LeaseRecalled t i l .sliceEnd x.config.grace)

/-- R12: a current SETTLE expiry takes its resource to IDLE; said whole where nobody waits for it. -/
def Obligations.SettleExpiryIdles : Prop :=
  ∀ (s : State) (e : Entry) (r : ResourceId), s.deadlines.owed = some e → e.owner = .resource r → s.Current e →
    (s.resource r).queue = [] →
    ∃ t, exec .settleExpiry s = .next t.deliver ∧ s.Taken t { resources := [r] } [] ∧
      t.resource r = { s.resource r with state := .idle, settleDeadline := none, starved := false }

/-- R3, R105: a stale expiry is taken and ignored: no record changes, no line moves, no notice is posted. -/
def Obligations.StaleExpiriesIgnored : Prop :=
  ∀ (s : State) (e : Entry), s.deadlines.owed = some e → ¬ s.Current e →
    ∃ t, exec e.purpose.command s = .next t.deliver ∧ s.Taken t {} []

/-- R1, R12, R21, R22, R42, R50, R67, R69, R78, R82, R85, R91, R117, R120: the whole effect of an event that may set off
more is its own first step and then the work which that step sets off, in the rules' order. What each item of work does is
stated by RecallStep, PreemptionCheckSelects, GrantPassTakesAPrefix and WorkItemsTakeTheirSteps, and that `run` does the
items in their order by EngineWorkEnds. -/
def Obligations.EventsRunTheirWork : Prop :=
  ∀ (p : Client) (q : Request) (s : State),
    let served := fun (t : State) (a : Reply) => Host.Outcome.next (s.testHead (t.endEvent.answer p q a))
    let left := fun (r : ResourceId) (j : WaiterSlot) =>
      if (s.resource r).queue.head? = some j then [Work.check r, .pass r] else []
    let waiting := fun (c : Client) (o : Outcome) =>
      s.beginEvent.run (resourceIds.map fun r => .removeWaiting r c o)
    let ended := fun (c : Client) (o : Outcome) (cause : EndCause) =>
      (waiting c o).run (resourceIds.map fun r => .endHolding r c cause)
    let closed := fun (c : Client) (o : Outcome) (cause : EndCause) (e : SessionEnd) =>
      let t := ended c o cause
      (t.setBox c { t.box c with queue := [], reservations := 0, warnLost := false, attention := false }).setSession c
        { t.session c with isOpen := false, lastEnd := e }
    let counts := fun (c : Client) (o : Outcome) =>
      [natByte ((waiting c o).session c).leaseCount, natByte (s.session c).waiterCount]
    (∀ i l, s.Serving p q .release → s.resolveOwnLease p (handleAt 32 q.params 0) = .valid i l →
      exec (.release p) s = served (s.beginEvent.run [.endLease i .released]) ⟨.ok, []⟩) ∧
    (∀ i l, s.Serving p q .downgrade → s.resolveOwnLease p (handleAt 32 q.params 0) = .valid i l →
      l.state = .active → l.mode = .exclusive → (s.resource l.resource).config.sharing = .sharedAllowed →
      let t := (s.beginEvent.setLease i { l with mode := .shared }).run [.pass l.resource]
      exec (.downgrade p) s = served t ⟨.ok, [natByte (t.resource l.resource).holderCount]⟩) ∧
    (∀ j w, s.Serving p q .cancel → s.resolveWaiter p (handleAt 24 q.params 0) = .valid j w →
      ∃ u, s.Inner u (w.endTouches j) [] [] ∧
        s.WaiterLeft u j w .cancelled { s.box p with reservations := (s.box p).reservations - 2 } ∧
        exec (.cancel p) s = served (u.run (left w.resource j)) ⟨.ok, []⟩) ∧
    (∀ i l immediate, s.Serving p q .revoke → s.resolveLease (handleAt 32 q.params 0) = .valid i l →
      byteAt q.params 2 = yesNo immediate →
      let grace := if immediate = true then 0 else (s.resource l.resource).config.grace
      (l.state = .active → exec (.revoke p) s = served (s.beginEvent.run [.recallLease i .revoked grace])
        ⟨.ok, if grace = 0 then 0x02 :: tickBytes 0 else 0x01 :: tickBytes (s.now + grace.setWidth 32)⟩) ∧
      (l.state ≠ .active → immediate = true →
        exec (.revoke p) s = served (s.beginEvent.run [.endLease i .forced]) ⟨.ok, 0x02 :: tickBytes 0⟩)) ∧
    (s.Serving p q .closeSession →
      exec (.closeSession p) s = served (closed p .cancelled .released .closed) ⟨.ok, counts p .cancelled⟩) ∧
    (∀ c : Client, s.Serving p q .evictClient → byteAt q.params 0 = natByte c.val → (s.session c).isOpen = true →
      exec (.evictClient p) s = served (closed c .tornDown .tornDown .evicted) ⟨.ok, counts c .tornDown⟩) ∧
    ((s.port p).offer = some .teardown → (s.session p).isOpen = true →
      exec (.teardownClaim p) s = .next (s.testHead ((closed p .tornDown .tornDown .portReset).endEvent.setPort p
        (Port.offerTaken { s.port p with owedTeardowns := (s.port p).owedTeardowns - 1, withdrawn := none })))) ∧
    (∀ r : ResourceId, s.Serving p q .clearFence → byteAt q.params 0 = natByte r.val →
      let cleared := fun t : State => exec (.clearFence p) s = served t ⟨.ok, [(t.resource r).state.code]⟩
      let x := s.resource r
      (x.state = .fenced → x.config.settle = 0 →
        cleared ((s.beginEvent.setResource r { x with state := .idle }).run [.pass r])) ∧
      (x.state = .held → x.fenceMark = true →
        cleared ((s.beginEvent.setResource r { x with fenceMark := false }).run [.pass r]))) ∧
    ∀ e : Entry, s.deadlines.owed = some e → s.Current e →
      let taken := (s.setDeadlines { s.deadlines with owed := none }).beginEvent
      (∀ (i : LeaseSlot) (l : Lease), e.owner = .lease i → s.lease i = some l →
        let x := s.resource l.resource
        (e.purpose = .expire →
          exec .expireExpiry s = .next (taken.run [.recallLease i .expired x.config.grace]).endEvent.deliver) ∧
        (e.purpose = .slice → x.queue ≠ [] →
          exec .sliceExpiry s = .next (taken.run [.recallLease i .sliceEnd x.config.grace]).endEvent.deliver) ∧
        (e.purpose = .grace → exec .graceExpiry s = .next (taken.run [.endLease i .forced]).endEvent.deliver)) ∧
      (∀ (j : WaiterSlot) (w : Waiter), e.owner = .waiter j → s.waiter j = some w →
        ∃ u, s.Inner u { w.endTouches j with owed := true } [] [] ∧ u.deadlines.owed = none ∧
          s.WaiterLeft u j w .timedOut ((s.box w.client).waitsEnded s.now [s.waitEndedNotice j w .timedOut]) ∧
          exec .waitExpiry s = .next (u.run (left w.resource j)).endEvent.deliver) ∧
      (∀ r : ResourceId, e.owner = .resource r →
        exec .settleExpiry s = .next ((taken.setResource r
          { s.resource r with state := .idle, settleDeadline := none }).run [.pass r]).endEvent.deliver)

/-- R103, R104: the delivery test delivers the list's head entry exactly when it is reached and nothing is owed, and
EXPIRY_DELIVERY makes it. For the arm and cancel commands of an event it is made where they have changed the head (R101,
R103), once, as the event ends (assumption log 4). -/
def Obligations.ExpiryDeliveryTakesTheHead : Prop :=
  ∀ s : State, exec .expiryDelivery s = .next s.deliver ∧
    (∀ e rest, s.deadlines.entries = e :: rest → s.deadlines.owed = none → (s.now - e.due).toNat < 2 ^ 31 →
      s.deliver = { s with deadlines := ⟨rest, some e⟩ }) ∧
    ((∀ e rest, s.deadlines.entries = e :: rest → s.deadlines.owed = none → 2 ^ 31 ≤ (s.now - e.due).toNat) →
      s.deliver = s) ∧
    (∀ t : State, (t.deadlines.entries.head? = s.deadlines.entries.head? → s.testHead t = t) ∧
      (t.deadlines.entries.head? ≠ s.deadlines.entries.head? → s.testHead t = t.deliver))

/-! ### Resources and the time base -/

/-- R7, R17: on an OFFLINE resource, CONFIGURE_RESOURCE replaces the whole configuration record, and SET_ONLINE takes the
resource to IDLE. -/
def Obligations.ConfigureAndSetOnline : Prop :=
  ∀ (p : Client) (q : Request) (s : State) (r : ResourceId), byteAt q.params 0 = natByte r.val →
    (s.resource r).state = .offline →
    (∀ c : ResourceConfig, s.Serving p q .configureResource → configAt q.params 1 = some c →
      ∃ t, exec (.configureResource p) s = .next t ∧
        s.Served t p q .ok [] { resources := [r] } [] ∧
        t.resource r = { s.resource r with config := c }) ∧
    (s.Serving p q .setOnline →
      ∃ t, exec (.setOnline p) s = .next t ∧
        s.Served t p q .ok [] { resources := [r] } [] ∧
        t.resource r = { s.resource r with state := .idle })

/-- R6, R166, section 9.5: the 14 bytes of a configuration record within the ranges of R6 spell that record, wherever they
stand in the parameters, and 14 bytes spell a record only when it is within those ranges and they are its bytes, so a set
bit 4 to 7 of the modes byte or of the allowed set and a slice_trim above 15 spell none. -/
def Obligations.ConfigRecordRoundTrip : Prop :=
  ∀ (c : ResourceConfig) (before bytes after : List Byte), bytes.length = 14 →
    let inRanges := 1 ≤ c.maxShared ∧ c.maxShared ≤ 4 ∧ (c.sharing = .exclusiveOnly → c.maxShared = 1) ∧
      1 ≤ c.defaultTerm.toNat ∧ c.defaultTerm.toNat ≤ c.maxTerm.toNat ∧ 1 ≤ c.sliceTicks.toNat
    c.bytes.length = 14 ∧ (configAt (before ++ bytes ++ after) before.length = some c ↔ inRanges ∧ bytes = c.bytes) ∧
    (16 ≤ (byteAt bytes 0).toNat ∨ 16 ≤ (byteAt bytes 8).toNat ∨ 16 ≤ (byteAt bytes 13).toNat →
      configAt (before ++ bytes ++ after) before.length = none)

/-- R18, R72: TAKE_OFFLINE of a resource that holds no lease removes its waiters and takes it to OFFLINE. -/
def Obligations.TakeOfflineWithoutLease : Prop :=
  ∀ (p : Client) (q : Request) (s : State) (r : ResourceId), s.Serving p q .takeOffline →
    byteAt q.params 0 = natByte r.val →
    ((s.resource r).state = .idle ∨ (s.resource r).state = .settling ∨ (s.resource r).state = .fenced) →
    s.QueuesAgree →
    ∃ t, exec (.takeOffline p) s = .next (s.testHead t) ∧
      s.Served t p q .ok [0x00, 0x00, natByte (s.resource r).queue.length] (s.queueTouches r) [] ∧
      t.resource r = { s.resource r with state := .offline, queue := [], starved := false, settleDeadline := none } ∧
      t.entriesOf (.resource r) = [] ∧ s.QueueRemoved t r ∧
      ∀ c : Client, t.box c = (s.box c).waitsEnded s.now (s.offlineNotices r c)

/-- R19, R72: TAKE_OFFLINE of a HELD resource removes its waiters, takes it to DRAINING and recalls each of its ACTIVE
leases OFFLINE, in ascending client number, in the same event; the answer gives the resource's state at the event's end
and the counts. With a grace above 0, said whole; with grace 0 each recall cuts in its turn (RecallStep,
WorkItemsTakeTheirSteps). -/
def Obligations.TakeOfflineDrains : Prop :=
  ∀ (p : Client) (q : Request) (s : State) (r : ResourceId), s.Serving p q .takeOffline →
    byteAt q.params 0 = natByte r.val → (s.resource r).state = .held →
    s.QueuesAgree → s.HoldersAgree →
    let grace := (s.resource r).config.grace
    let due := s.now + grace.setWidth 32
    let draining := fun t : State => t.resource r
      = { s.resource r with state := .draining, queue := [], starved := false, fenceMark := false }
    ∃ recalled : List LeaseSlot,
      (∀ i : LeaseSlot, i ∈ recalled ↔ ∃ l ∈ s.lease i, l.resource = r ∧ l.state = .active) ∧
      recalled.Pairwise (fun i i' => ∀ l ∈ s.lease i, ∀ l' ∈ s.lease i', l.holder < l'.holder) ∧
      (∃ u, s.Inner u (s.queueTouches r) [] [] ∧ draining u ∧ s.QueueRemoved u r ∧
        (∀ c : Client, u.box c = (s.box c).waitsEnded s.now (s.offlineNotices r c)) ∧
        let v := u.run (recalled.map fun i => .recallLease i .offline grace)
        exec (.takeOffline p) s = .next (s.testHead (v.endEvent.answer p q
          ⟨.ok, [(v.resource r).state.code, natByte recalled.length, natByte (s.resource r).queue.length]⟩))) ∧
      (grace ≠ 0 → ∃ t, exec (.takeOffline p) s = .next (s.testHead t) ∧
        s.Served t p q .ok [0x05, natByte recalled.length, natByte (s.resource r).queue.length]
          { s.queueTouches r with leases := recalled, owners := (s.queueTouches r).owners ++ recalled.map .lease } [] ∧
        draining t ∧ s.QueueRemoved t r ∧
        (∀ i ∈ recalled, ∀ l ∈ s.lease i,
          t.leaseRecord i = { s.leaseRecord i with
            lease := some { l with state := .recalling .offline, phase := .grace, deadline := due } } ∧
          t.entriesOf (.lease i) = [⟨.lease i, some (s.leaseRecord i).incarnation, .grace, due⟩] ∧
          t.box l.holder = ((s.box l.holder).waitsEnded s.now (s.offlineNotices r l.holder)).post s.now
            (s.recallNotice i l .offline grace)) ∧
        ∀ c : Client, (∀ i ∈ recalled, ∀ l ∈ s.lease i, l.holder ≠ c) →
          t.box c = (s.box c).waitsEnded s.now (s.offlineNotices r c))

/-- R21, R22: CLEAR_FENCE takes a FENCED resource to SETTLING or, with settle 0, to IDLE, and clears the fence mark of a
HELD one; said whole where no grant pass finds a waiter (EventsRunTheirWork says the passes that find one). -/
def Obligations.ClearFenceEndsTheFence : Prop :=
  ∀ (p : Client) (q : Request) (s : State) (r : ResourceId), s.Serving p q .clearFence →
    byteAt q.params 0 = natByte r.val →
    let x := s.resource r
    let due := s.now + x.config.settle.setWidth 32
    (x.state = .fenced → x.config.settle ≠ 0 → ∃ t, exec (.clearFence p) s = .next (s.testHead t) ∧
      s.Served t p q .ok [0x03] { resources := [r], owners := [.resource r] } [] ∧
      t.resource r = { x with state := .settling, settleDeadline := some due } ∧
      t.entriesOf (.resource r) = [⟨.resource r, none, .settle, due⟩]) ∧
    (x.state = .fenced → x.config.settle = 0 → x.queue = [] → ∃ t, exec (.clearFence p) s = .next t ∧
      s.Served t p q .ok [0x01] { resources := [r] } [] ∧
      t.resource r = { x with state := .idle, starved := false }) ∧
    (x.state = .held → x.fenceMark = true → x.queue = [] → ∃ t, exec (.clearFence p) s = .next t ∧
      s.Served t p q .ok [0x02] { resources := [r] } [] ∧
      t.resource r = { x with fenceMark := false, starved := false })

/-- R108: SET_TIMEBASE, while every resource is OFFLINE, replaces the divisor and restarts the prescaler. -/
def Obligations.SetTimebaseReplacesTheDivisor : Prop :=
  ∀ (p : Client) (q : Request) (s : State), s.Serving p q .setTimebase →
    1 ≤ (halfAt q.params 0).toNat → (halfAt q.params 0).toNat ≤ 4096 →
    (∀ r : ResourceId, (s.resource r).state = .offline) →
    ∃ t, exec (.setTimebase p) s = .next t ∧
      s.Served t p q .ok (halfBytes (halfAt q.params 0) ++ halfBytes (BitVec.ofNat 16 s.timeBase.divisor))
        { timeBase := true } [] ∧
      t.timeBase = ⟨(halfAt q.params 0).toNat, 0, s.timeBase.counter⟩

/-- R97: a due tick less than 2^31 ticks ahead is not reached until the counter has come all the way, whatever wrap lies
between, and stays reached for 2^31 ticks. -/
def Obligations.TicksAcrossTheWrap : Prop :=
  ∀ (start : Tick) (d k : Nat), d ≤ 2 ^ 31 → k < 2 ^ 31 + d →
    let due := start + BitVec.ofNat 32 d
    let now := start + BitVec.ofNat 32 k
    (reached now due = true ↔ d ≤ k) ∧ remaining now due = BitVec.ofNat 32 (d - k)

/-- R100, R101, R102: an arm command replaces the owner's entry, and a cancel removes it. While all due ticks stand
within half of the tick range of one another, the list stays in due order, and a new entry stands behind every entry
with the same due tick. Every step keeps the list in due order from a state whose due ticks stand in one half of the
range, with room for the longest interval (R97 says that they always do). -/
def Obligations.DeadlineListStaysInDueOrder : Prop :=
  (∀ (s : State) (e : Entry) (base : Tick), s.DueOrder →
    (∀ x ∈ e :: s.deadlines.entries, (x.due - base).toNat < 2 ^ 31) →
    (s.arm e).DueOrder ∧ (s.disarm e.owner).DueOrder ∧
    (s.disarm e.owner).deadlines.entries = s.deadlines.entries.filter (fun x => decide (x.owner ≠ e.owner)) ∧
    ∃ ahead behind, (s.arm e).deadlines.entries = ahead ++ e :: behind ∧
      ahead ++ behind = s.deadlines.entries.filter (fun x => decide (x.owner ≠ e.owner)) ∧
      (∀ x ∈ ahead, (x.due - base).toNat ≤ (e.due - base).toNat) ∧
      (∀ x ∈ behind, (e.due - base).toNat < (x.due - base).toNat)) ∧
  (∀ (s t : State) (base : Tick), s.DueOrder → s.DueWithin base → step s = .next t →
    t.DueOrder ∧ ∀ x ∈ t.deadlines.entries, (x.due - base).toNat < 2 ^ 31)

/-! ### Queries -/

/-- R23, R24, R51, R52, R110: the three queries answer OK with the view of section 9.7 and change no record. -/
def Obligations.QueriesReadOnly : Prop :=
  ∀ (p : Client) (q : Request) (s : State),
    let left := fun due : Tick => if (s.now - due).toNat < 2 ^ 31 then (0 : Tick) else due - s.now
    (∀ (i : LeaseSlot) (l : Lease), s.Serving p q .queryLease →
      s.resolveOwnLease p (handleAt 32 q.params 0) = .valid i l →
      ∃ t, exec (.queryLease p) s = .next t ∧ s.Served t p q .ok
        ([natByte l.resource.val, l.mode.code, natByte l.urgency.val, yesNo l.state.isRecalling, l.state.reasonCode,
          l.phase.code] ++ tickBytes (left l.deadline)) {} []) ∧
    (∀ r : ResourceId, s.Serving p q .queryResource → byteAt q.params 0 = natByte r.val →
      ∃ t, exec (.queryResource p) s = .next t ∧ s.Served t p q .ok (s.resourceView r) {} []) ∧
    (s.Serving p q .queryDevice →
      ∃ t admins open_, exec (.queryDevice p) s = .next t ∧ s.Served t p q .ok
        (tickBytes s.now ++ halfBytes (BitVec.ofNat 16 s.timeBase.divisor) ++
          [natByte ((List.finRange 32).countP fun i => (s.lease i).isNone),
            natByte ((List.finRange 24).countP fun j => (s.waiter j).isNone),
            natByte s.deadlines.entries.length, clientSetByte admins, clientSetByte open_]) {} [] ∧
        ∀ c : Client, admins.getLsbD c.val = (s.session c).admin ∧ open_.getLsbD c.val = (s.session c).isOpen)

/-- R23, R24, R168, section 9.7: the results of QUERY_RESOURCE: state, marks, the configuration record, settle
remaining, the holders in ascending client number with their modes, states and ticks remaining, the queue's length and
its head's urgency. The view's entry of a RECALLING lease holds the first recall reason (R76); that its bytes say RECALLING
and send no reason is the model's choice against R76's words (assumption log 22, DESIGN CHOICE, unsafe). -/
def Obligations.ResourceViewLayout : Prop :=
  ∀ (s : State) (r : ResourceId), s.HoldersAgree → s.QueuesAgree →
    let x := s.resource r
    let left := fun due : Tick => if (s.now - due).toNat < 2 ^ 31 then (0 : Tick) else due - s.now
    ∃ (holders : List Lease) (settle : Byte) (head : Byte),
      s.resourceView r = [x.state.code, (BitVec.ofBool x.starved ++ BitVec.ofBool x.fenceMark).setWidth 8]
        ++ x.config.bytes ++ [settle, natByte holders.length]
        ++ (holders.flatMap fun l => (BitVec.ofBool l.state.isRecalling ++ BitVec.ofBool (decide (l.mode = .shared))
            ++ BitVec.ofNat 2 l.holder.val).setWidth 8 :: tickBytes (left l.deadline))
        ++ [natByte x.queue.length, head] ∧
      s.holderEntries r = (holders.map fun l => ⟨l.holder, l.mode, l.state, left l.deadline⟩) ∧
      (∀ l, l ∈ holders ↔ l.resource = r ∧ ∃ i, s.lease i = some l) ∧
      holders.Pairwise (fun l l' => l.holder < l'.holder) ∧
      (∀ due, x.state = .settling → x.settleDeadline = some due → settle = (left due).setWidth 8) ∧
      (x.state ≠ .settling → settle = 0x00) ∧
      (x.queue = [] → head = 0xFF) ∧
      (∀ j rest, x.queue = j :: rest → ∀ w ∈ s.waiter j, head = natByte w.urgency.val)

/-! ### The notice unit -/

/-- R129, R131, R133, R134, R137, R140, R143: what the notice unit's commands do to one client's state. -/
def Obligations.NoticeUnitCommands : Prop :=
  ∀ (b : NoticeBox) (now : Tick) (body : NoticeBody) (n : Nat) (seq : Byte),
    let due := fun queue : List Notice => queue.any fun x => decide (b.threshold.val < x.body.level)
    let posted : List Notice := b.queue ++ [⟨b.seq, now, body⟩]
    b.append now body = { b with queue := posted, seq := b.seq + 1, attention := due posted } ∧
    b.post now body
      = { b with queue := posted, seq := b.seq + 1, reservations := b.reservations - 1, attention := due posted } ∧
    (1 ≤ b.reservations → (b.post now body).used = b.used) ∧
    b.warn now body = (if b.used < 16 then b.append now body else { b with warnLost := true }) ∧
    b.reserve n = { b with reservations := b.reservations + n } ∧
    b.giveBack n = { b with reservations := b.reservations - n } ∧
    (∀ head rest, b.queue = head :: rest → head.seq = seq →
      b.acknowledge seq = { b with queue := rest, warnLost := false, attention := due rest }) ∧
    ((∀ head rest, b.queue = head :: rest → head.seq ≠ seq) → b.acknowledge seq = b) ∧
    b.empty = { b with queue := [], reservations := 0, warnLost := false, attention := false }

/-! ### The client ports -/

/-- R150, R151: a PUT on a port that is not held: a frame that is too long, incomplete or fails its check sets
LINK_ERROR; a good one is ignored when the buffer is full, and else joins it with the port's link generation. That the
status byte which goes out and the buffer which the frame is judged by are of one state is the model's choice: a
transaction is one step (assumption log 7). -/
def Obligations.PutFrameIsJudged : Prop :=
  ∀ (p : Client) (s : State) (frame : List Byte), s.portHeld p = false →
    let x := { s.port p with shiftedOut := s.statusOf p :: List.replicate frame.length 0x00 }
    ∃ t, exec (.put p frame) s = .next t ∧ s.Frame t { ports := [p] } ∧
      (frame.length < 3 → t.port p = { x with linkError := true }) ∧
      ∀ (kind tag n : Byte) (rest : List Byte), frame = kind :: tag :: n :: rest →
        (16 < n.toNat → t.port p = { x with linkError := true }) ∧
        (n.toNat ≤ 16 → rest.length ≤ n.toNat → t.port p = { x with linkError := true }) ∧
        (∀ (params : List Byte) (check : Byte) (more : List Byte), n.toNat ≤ 16 → params.length = n.toNat →
          rest = params ++ check :: more →
          (check ≠ crc8 ([kind, tag, n] ++ params) → t.port p = { x with linkError := true }) ∧
          (check = crc8 ([kind, tag, n] ++ params) → 4 ≤ x.buffer.length → t.port p = x) ∧
          (check = crc8 ([kind, tag, n] ++ params) → x.buffer.length < 4 →
            t.port p = Port.makeOffer { x with
              buffer := x.buffer ++ [.request ⟨kind, tag, n, params, x.generation⟩ false], linkError := false }))

/-- R136, R137, R154 to R158: a TAKE_ANSWER and a TAKE_NOTICE on a port that is not held: a matching acknowledge removes
the head, and the frame then at the head goes out behind the marker; an acknowledge flag of no known value is refused.
That the status byte which goes out and the queue which is read are of one state is the model's choice: a transaction is
one step (assumption log 7). -/
def Obligations.TakesAcknowledgeAndPeek : Prop :=
  ∀ (p : Client) (s : State) (flag seq : Byte) (more : Nat), s.portHeld p = false →
    let out := fun copy : Option (List Byte) => shiftOut (3 + more) ([s.statusOf p, 0x00, 0x00] ++
      match copy with
      | some frame => 0x01 :: frame
      | none => [0x00])
    let x := s.port p
    let b := s.box p
    let answers := match x.buffer with
      | .answer n frame :: rest => if flag = 0x01 ∧ n = seq then rest else .answer n frame :: rest
      | other => other
    let answer := match answers with
      | .answer _ frame :: _ => some frame
      | _ => none
    let box := if flag = 0x01 then b.acknowledge seq else b
    ((flag = 0x00 ∨ flag = 0x01) →
      (∃ t, exec (.takeAnswer p flag seq more) s = .next t ∧ s.Frame t { ports := [p] } ∧
        t.port p = { x with buffer := answers, shiftedOut := out answer }) ∧
      (∃ t, exec (.takeNotice p flag seq more) s = .next t ∧ s.Frame t { ports := [p], boxes := [p] } ∧
        t.box p = box ∧ t.port p = { x with shiftedOut := out (box.queue.head?.map Notice.frame) })) ∧
    (flag ≠ 0x00 → flag ≠ 0x01 → ∀ c ∈ [Instr.takeAnswer p flag seq more, Instr.takeNotice p flag seq more],
      ∃ t, exec c s = .next t ∧ s.Frame t { ports := [p] } ∧
        t.port p = { x with linkError := true, shiftedOut := s.statusOf p :: List.replicate (2 + more) 0x00 })

/-- R149: on a port that is not held, a STATUS sends the status byte first, and the byte's bits are the conditions at its
snapshot. -/
def Obligations.StatusByteGoesOut : Prop :=
  ∀ (p : Client) (s : State) (more : Nat), s.portHeld p = false →
    ∃ (t : State) (b : Byte), exec (.status p more) s = .next t ∧ (t.port p).shiftedOut.head? = some b ∧
      b.getLsbD 0 = (match (s.port p).buffer with
        | .answer _ _ :: _ => true
        | _ => false) ∧
      b.getLsbD 1 = !(s.box p).queue.isEmpty ∧
      b.getLsbD 2 = decide (4 ≤ (s.port p).buffer.length) ∧
      b.getLsbD 3 = (s.port p).linkError ∧
      b.getLsbD 4 = (s.session p).isOpen ∧
      b.getLsbD 5 = (s.box p).warnLost ∧
      b.getLsbD 6 = (s.box p).attention ∧
      b.getLsbD 7 = false

/-- R148, R150, R156, R158, R161, R163: STATUS and a transaction of no known selecting byte send the status byte and
fillers, and change nothing else. A transaction that CS_N cuts has the effects its positions have reached: none inside
position 0, none of a TAKE before its acknowledge sequence has been received in full, but for a TAKE whose acknowledge flag
is of no known value, which has been refused at the end of position 1 (R156; assumption log 23). A held port ignores its
SPI lines. -/
def Obligations.CutAndHeldTransactions : Prop :=
  ∀ (p : Client) (s : State),
    (s.portHeld p = false → ∀ (selector : Byte) (more : Nat), knownSelector selector = false →
      ∀ c ∈ [Instr.status p more, Instr.unknownTransaction p selector more],
      ∃ t, exec c s = .next t ∧ s.Frame t { ports := [p] } ∧
        t.port p = { s.port p with shiftedOut := s.statusOf p :: List.replicate more 0x00 }) ∧
    (∀ frame : List Byte, exec (.cutTransaction p (0x50 :: frame)) s = exec (.put p frame) s) ∧
    (∀ (flag seq : Byte) (rest : List Byte),
      exec (.cutTransaction p (0x61 :: flag :: seq :: rest)) s = exec (.takeAnswer p flag seq rest.length) s ∧
      exec (.cutTransaction p (0x62 :: flag :: seq :: rest)) s = exec (.takeNotice p flag seq rest.length) s) ∧
    (s.portHeld p = false →
      ∃ t, exec (.cutTransaction p []) s = .next t ∧ s.Frame t { ports := [p] } ∧
        t.port p = { s.port p with shiftedOut := [] }) ∧
    (s.portHeld p = false → ∀ received ∈ ([[0x61], [0x61, 0x00], [0x61, 0x01], [0x62], [0x62, 0x00], [0x62, 0x01]]
        : List (List Byte)),
      ∃ t, exec (.cutTransaction p received) s = .next t ∧ s.Frame t { ports := [p] } ∧
        t.port p = { s.port p with shiftedOut := s.statusOf p :: List.replicate (received.length - 1) 0x00 }) ∧
    (s.portHeld p = false → ∀ flag : Byte, flag ≠ 0x00 → flag ≠ 0x01 →
      ∀ received ∈ ([[0x61, flag], [0x62, flag]] : List (List Byte)),
      ∃ t, exec (.cutTransaction p received) s = .next t ∧ s.Frame t { ports := [p] } ∧
        t.port p = { s.port p with linkError := true, shiftedOut := [s.statusOf p, 0x00] }) ∧
    (s.portHeld p = true → ∀ (frame : List Byte) (flag seq selector : Byte) (more : Nat),
      ∀ c ∈ [Instr.put p frame, .takeAnswer p flag seq more, .takeNotice p flag seq more, .status p more,
        .unknownTransaction p selector more, .cutTransaction p frame],
      ∃ t, exec c s = .next t ∧ s.Frame t { ports := [p] } ∧ t.port p = { s.port p with shiftedOut := [] })

/-- R153, section 9.3: the oldest answer under way takes the place of the oldest request in service, with the next
sequence number, when its stamp equals the port's link generation, and is discarded otherwise. -/
def Obligations.PlaceAnswerPlacesOrDiscards : Prop :=
  ∀ (p : Client) (s : State) (a : AnswerInFlight) (rest : List AnswerInFlight), (s.port p).inFlight = a :: rest →
    let x := s.port p
    let body := [x.answerSeq, a.tag, a.kind, a.status.code] ++ tickBytes a.tick ++ [natByte a.results.length] ++ a.results
    ∃ t, exec (.placeAnswer p) s = .next t ∧ s.Frame t { ports := [p] } ∧
      (a.stamp ≠ x.generation → t.port p = { x with inFlight := rest }) ∧
      (a.stamp = x.generation → ∀ (before : List Item) (q : Request) (after : List Item),
        x.buffer = before ++ .request q true :: after → (∀ q', Item.request q' true ∉ before) →
        t.port p = { x with inFlight := rest, answerSeq := x.answerSeq + 1,
                            buffer := before ++ .answer x.answerSeq (body ++ [crc8 body]) :: after })

/-- R152, R162: the port's next offer, made as the engine takes the one that stands, is an owed teardown claim, else
its oldest pending request, which goes into service; a request whose stamp is not the link generation is discarded
unserved. -/
def Obligations.OffersFollowTheirOrder : Prop :=
  ∀ x : Port,
    (0 < x.owedTeardowns → x.offerTaken = { x with offer := some .teardown }) ∧
    (x.owedTeardowns = 0 → ∀ (before : List Item) (q : Request) (after : List Item),
      x.buffer = before ++ .request q false :: after → (∀ q', Item.request q' false ∉ before) →
      x.offerTaken = { x with buffer := before ++ .request q true :: after, offer := some (.request q) }) ∧
    (x.owedTeardowns = 0 → (∀ q', Item.request q' false ∉ x.buffer) → x.offerTaken = { x with offer := none }) ∧
    ∀ (p : Client) (s : State) (q : Request), s.port p = x →
      (x.withdrawn = some q → exec (.discardedUnserved p) s = .next (s.setPort p { x with withdrawn := none })) ∧
      (x.withdrawn = none → x.offer = some (.request q) → q.stamp ≠ x.generation →
        exec (.discardedUnserved p) s = .next (s.setPort p x.offerTaken))

/-- R121, and the model's choice for a command whose claim does not stand (assumption log 1): a teardown claim that finds
the session CLOSED changes only the port, and a command for a request, claim, answer or expiry that is not there changes
nothing. -/
def Obligations.ClaimsThatChangeNothing : Prop :=
  ∀ (p : Client) (s : State),
    ((s.port p).offer = some .teardown → (s.session p).isOpen = false →
      ∃ t, exec (.teardownClaim p) s = .next t ∧ s.Frame t { ports := [p], gate := some [] } ∧
        t.port p = Port.offerTaken { s.port p with owedTeardowns := (s.port p).owedTeardowns - 1, withdrawn := none }) ∧
    ((s.port p).offer ≠ some .teardown → exec (.teardownClaim p) s = .next s) ∧
    (∀ k : Kind, (∀ q, s.offered p = some q → kindOfByte q.kind ≠ some k) → exec (k.command p) s = .next s) ∧
    (∀ purpose : Purpose, (∀ e, s.deadlines.owed = some e → e.purpose ≠ purpose) → exec purpose.command s = .next s) ∧
    ((s.port p).inFlight = [] → exec (.placeAnswer p) s = .next s)

/-- R160, R161: an assertion of PCLR_N empties the port, advances its link generation and offers a teardown claim; the
deassertion changes the level alone. That a PORT_RESET on a PCLR_N already asserted is no assertion and records the level
alone is the model's reading (assumption log 14), and so is that a request withdrawn by an earlier reset, and not taken
since, stays withdrawn (log 6). -/
def Obligations.PortResetEmptiesThePort : Prop :=
  ∀ (p : Client) (s : State),
    let x := s.port p
    (s.resetHeld = false → x.pclr = false → ∃ t, exec (.portReset p) s = .next t ∧ s.Frame t { ports := [p] } ∧
      t.port p = { buffer := [], answerSeq := 0, generation := x.generation + 1, owedTeardowns := x.owedTeardowns + 1,
                   linkError := false, offer := some .teardown,
                   withdrawn := (match x.offer with
                     | some (.request q) => some q
                     | _ => x.withdrawn),
                   inFlight := x.inFlight, pclr := true, shiftedOut := [] }) ∧
    (s.resetHeld = true ∨ x.pclr = true → ∃ t, exec (.portReset p) s = .next t ∧ s.Frame t { ports := [p] } ∧
      t.port p = { x with pclr := true }) ∧
    (∃ t, exec (.pclrDeasserted p) s = .next t ∧ s.Frame t { ports := [p] } ∧ t.port p = { x with pclr := false })

/-- R4, R6, R25, R53, R96, R107, R111, R128, R146, R163: DEVICE_RESET gives every record its reset value and holds RESET_N;
its deassertion lets a port whose PCLR_N is held asserted take that as an assertion. -/
def Obligations.DeviceResetRestoresEverything : Prop :=
  ∀ s : State,
    (∃ t, exec .deviceReset s = .next t ∧ t.resetHeld = true ∧ t.pending = s.pending ∧
      t.timeBase = ⟨1000, 0, 0⟩ ∧ t.deadlines = ⟨[], none⟩ ∧
      (∀ r : ResourceId,
        t.resource r = ⟨.offline, false, ResourceConfig.default, Vector.replicate 4 none, [], false, none⟩) ∧
      (∀ i : LeaseSlot, t.leaseRecord i = ⟨0, none, none⟩) ∧ (∀ j : WaiterSlot, t.waiterRecord j = ⟨0, none, none⟩) ∧
      (∀ c : Client, t.session c = ⟨false, 0, .deviceReset, decide (c = 0), 0, 0, 0⟩ ∧
        t.box c = ⟨[], 0, 0, false, 0, false⟩ ∧
        t.port c = ⟨[], 0, 0, 0, false, none, none, [], (s.port c).pclr, []⟩ ∧ ∀ r : ResourceId, t.line r c = false)) ∧
    ((∀ p : Client, (s.port p).pclr = false) →
      exec .deviceReset s = .next { State.reset with resetHeld := true, pending := s.pending }) ∧
    ResourceConfig.default = ⟨.exclusiveOnly, 1, .term, 1000, 60000, 100, 0, 0, 10, 0, false, 0b1111, .fence⟩ ∧
    (s.resetHeld = true → ∃ t, exec .resetDeasserted s = .next t ∧ t = { s with resetHeld := false, ports := t.ports } ∧
      ∀ p : Client, t.port p = if (s.port p).pclr then (s.port p).resetPort else s.port p) ∧
    (s.resetHeld = false → exec .resetDeasserted s = .next s)

/-! ### The laws of the device, kept by every step -/

/-- Every law holds right after device reset. -/
def Obligations.ResetMeetsEveryLaw : Prop :=
  State.reset.NoticeLaws ∧ State.reset.DeadlineLaws ∧ State.reset.ResourceLaws ∧ State.reset.BlockLaws ∧
    State.reset.DueOrder

/-- R95, R103, R108, R126, R140, R141, R146, R147: every step keeps the laws that single blocks keep by themselves, among
them that a reached head is never left in the list while nothing is owed (R103). After it, each ATTN_N is driven at its
active level exactly while the client has a notice above its threshold and RESET_N is not held (R140, R163, R164). -/
def Obligations.StepKeepsBlockLaws : Prop :=
  ∀ s t : State, s.BlockLaws → step s = .next t → t.BlockLaws ∧
    ∀ c : Client, t.attnAsserted c = true ↔
      t.resetHeld = false ∧ ∃ n ∈ (t.box c).queue, (t.session c).threshold.val < n.body.level

/-- R4, R15, R16, R25, R30, R54, R111: every step keeps the tables, the queues, the counts and the grant lines in agreement. -/
def Obligations.StepKeepsRecordLaws : Prop :=
  ∀ s t : State, s.RecordLaws → step s = .next t → t.RecordLaws

/-- R112, R131: every step keeps the notice unit's reservations equal to what the leases and waiters promise, never more
than 16 entries spoken for, and a closed session without anything. -/
def Obligations.StepKeepsNoticeLaws : Prop :=
  ∀ s t : State, s.NoticeLaws → step s = .next t → t.NoticeLaws

/-- R4, R74, R99, R101, R103: every step keeps the deadline list's entries the owners', the owner of an owed expiry that is
still current without an entry, and a lease's phase what its state says, given that the configurations are within their
ranges (every step keeps that) and that the owed expiry counts as reached (every step keeps that while the counter stands,
and R97 lets it count so for 2^31 ticks). -/
def Obligations.StepKeepsDeadlineLaws : Prop :=
  ∀ s t : State, s.DeadlineLaws → s.ConfigLaw → s.OwedReached → step s = .next t →
    t.DeadlineLaws ∧ (t.now = s.now → t.OwedReached)

/-- Section 1.4, R5, R6, R13, R57: every step keeps the laws of the resource records. -/
def Obligations.StepKeepsResourceLaws : Prop :=
  ∀ s t : State, s.ResourceLaws → step s = .next t → t.ResourceLaws

/-- R7: no step but a device reset changes the configuration of a resource that is not OFFLINE. -/
def Obligations.ConfigurationFixedWhileOnline : Prop :=
  ∀ (c : Instr) (s t : State) (r : ResourceId), c ≠ .deviceReset → exec c s = .next t →
    (s.resource r).state ≠ .offline → (t.resource r).config = (s.resource r).config
end

