-- ==== Sys2Proof/Laws/State.lean ====
section
/-!
SUPPORT. One lemma for each reading of the state after each writing of it: a record reads as written, every other
record and every other part of the state reads as before.
-/

namespace Sys2Proof.Machine

/-! ### After `setResource` -/

@[simp] theorem State.setResource_resetHeld (s : State) (k : ResourceId) (x : Resource) : (s.setResource k x).resetHeld = s.resetHeld := rfl
@[simp] theorem State.setResource_timeBase (s : State) (k : ResourceId) (x : Resource) : (s.setResource k x).timeBase = s.timeBase := rfl
@[simp] theorem State.setResource_deadlines (s : State) (k : ResourceId) (x : Resource) : (s.setResource k x).deadlines = s.deadlines := rfl
@[simp] theorem State.setResource_leases (s : State) (k : ResourceId) (x : Resource) : (s.setResource k x).leases = s.leases := rfl
@[simp] theorem State.setResource_waiters (s : State) (k : ResourceId) (x : Resource) : (s.setResource k x).waiters = s.waiters := rfl
@[simp] theorem State.setResource_sessions (s : State) (k : ResourceId) (x : Resource) : (s.setResource k x).sessions = s.sessions := rfl
@[simp] theorem State.setResource_gate (s : State) (k : ResourceId) (x : Resource) : (s.setResource k x).gate = s.gate := rfl
@[simp] theorem State.setResource_notices (s : State) (k : ResourceId) (x : Resource) : (s.setResource k x).notices = s.notices := rfl
@[simp] theorem State.setResource_ports (s : State) (k : ResourceId) (x : Resource) : (s.setResource k x).ports = s.ports := rfl
@[simp] theorem State.setResource_pending (s : State) (k : ResourceId) (x : Resource) : (s.setResource k x).pending = s.pending := rfl
@[simp] theorem State.setResource_now (s : State) (k : ResourceId) (x : Resource) : (s.setResource k x).now = s.now := rfl
@[simp] theorem State.setResource_line (s : State) (k : ResourceId) (x : Resource) (r : ResourceId) (c : Client) : (s.setResource k x).line r c = s.line r c := rfl
@[simp] theorem State.setResource_leaseRecord (s : State) (k : ResourceId) (x : Resource) (i : LeaseSlot) : (s.setResource k x).leaseRecord i = s.leaseRecord i := rfl
@[simp] theorem State.setResource_lease (s : State) (k : ResourceId) (x : Resource) (i : LeaseSlot) : (s.setResource k x).lease i = s.lease i := rfl
@[simp] theorem State.setResource_waiterRecord (s : State) (k : ResourceId) (x : Resource) (j : WaiterSlot) : (s.setResource k x).waiterRecord j = s.waiterRecord j := rfl
@[simp] theorem State.setResource_waiter (s : State) (k : ResourceId) (x : Resource) (j : WaiterSlot) : (s.setResource k x).waiter j = s.waiter j := rfl
@[simp] theorem State.setResource_session (s : State) (k : ResourceId) (x : Resource) (c : Client) : (s.setResource k x).session c = s.session c := rfl
@[simp] theorem State.setResource_box (s : State) (k : ResourceId) (x : Resource) (c : Client) : (s.setResource k x).box c = s.box c := rfl
@[simp] theorem State.setResource_port (s : State) (k : ResourceId) (x : Resource) (p : Client) : (s.setResource k x).port p = s.port p := rfl

/-! ### After `setLeaseRecord` -/

@[simp] theorem State.setLeaseRecord_resetHeld (s : State) (k : LeaseSlot) (x : LeaseRecord) : (s.setLeaseRecord k x).resetHeld = s.resetHeld := rfl
@[simp] theorem State.setLeaseRecord_timeBase (s : State) (k : LeaseSlot) (x : LeaseRecord) : (s.setLeaseRecord k x).timeBase = s.timeBase := rfl
@[simp] theorem State.setLeaseRecord_deadlines (s : State) (k : LeaseSlot) (x : LeaseRecord) : (s.setLeaseRecord k x).deadlines = s.deadlines := rfl
@[simp] theorem State.setLeaseRecord_resources (s : State) (k : LeaseSlot) (x : LeaseRecord) : (s.setLeaseRecord k x).resources = s.resources := rfl
@[simp] theorem State.setLeaseRecord_waiters (s : State) (k : LeaseSlot) (x : LeaseRecord) : (s.setLeaseRecord k x).waiters = s.waiters := rfl
@[simp] theorem State.setLeaseRecord_sessions (s : State) (k : LeaseSlot) (x : LeaseRecord) : (s.setLeaseRecord k x).sessions = s.sessions := rfl
@[simp] theorem State.setLeaseRecord_gate (s : State) (k : LeaseSlot) (x : LeaseRecord) : (s.setLeaseRecord k x).gate = s.gate := rfl
@[simp] theorem State.setLeaseRecord_notices (s : State) (k : LeaseSlot) (x : LeaseRecord) : (s.setLeaseRecord k x).notices = s.notices := rfl
@[simp] theorem State.setLeaseRecord_ports (s : State) (k : LeaseSlot) (x : LeaseRecord) : (s.setLeaseRecord k x).ports = s.ports := rfl
@[simp] theorem State.setLeaseRecord_pending (s : State) (k : LeaseSlot) (x : LeaseRecord) : (s.setLeaseRecord k x).pending = s.pending := rfl
@[simp] theorem State.setLeaseRecord_now (s : State) (k : LeaseSlot) (x : LeaseRecord) : (s.setLeaseRecord k x).now = s.now := rfl
@[simp] theorem State.setLeaseRecord_line (s : State) (k : LeaseSlot) (x : LeaseRecord) (r : ResourceId) (c : Client) : (s.setLeaseRecord k x).line r c = s.line r c := rfl
@[simp] theorem State.setLeaseRecord_resource (s : State) (k : LeaseSlot) (x : LeaseRecord) (r : ResourceId) : (s.setLeaseRecord k x).resource r = s.resource r := rfl
@[simp] theorem State.setLeaseRecord_waiterRecord (s : State) (k : LeaseSlot) (x : LeaseRecord) (j : WaiterSlot) : (s.setLeaseRecord k x).waiterRecord j = s.waiterRecord j := rfl
@[simp] theorem State.setLeaseRecord_waiter (s : State) (k : LeaseSlot) (x : LeaseRecord) (j : WaiterSlot) : (s.setLeaseRecord k x).waiter j = s.waiter j := rfl
@[simp] theorem State.setLeaseRecord_session (s : State) (k : LeaseSlot) (x : LeaseRecord) (c : Client) : (s.setLeaseRecord k x).session c = s.session c := rfl
@[simp] theorem State.setLeaseRecord_box (s : State) (k : LeaseSlot) (x : LeaseRecord) (c : Client) : (s.setLeaseRecord k x).box c = s.box c := rfl
@[simp] theorem State.setLeaseRecord_port (s : State) (k : LeaseSlot) (x : LeaseRecord) (p : Client) : (s.setLeaseRecord k x).port p = s.port p := rfl

/-! ### After `setLease` -/

@[simp] theorem State.setLease_resetHeld (s : State) (k : LeaseSlot) (x : Lease) : (s.setLease k x).resetHeld = s.resetHeld := rfl
@[simp] theorem State.setLease_timeBase (s : State) (k : LeaseSlot) (x : Lease) : (s.setLease k x).timeBase = s.timeBase := rfl
@[simp] theorem State.setLease_deadlines (s : State) (k : LeaseSlot) (x : Lease) : (s.setLease k x).deadlines = s.deadlines := rfl
@[simp] theorem State.setLease_resources (s : State) (k : LeaseSlot) (x : Lease) : (s.setLease k x).resources = s.resources := rfl
@[simp] theorem State.setLease_waiters (s : State) (k : LeaseSlot) (x : Lease) : (s.setLease k x).waiters = s.waiters := rfl
@[simp] theorem State.setLease_sessions (s : State) (k : LeaseSlot) (x : Lease) : (s.setLease k x).sessions = s.sessions := rfl
@[simp] theorem State.setLease_gate (s : State) (k : LeaseSlot) (x : Lease) : (s.setLease k x).gate = s.gate := rfl
@[simp] theorem State.setLease_notices (s : State) (k : LeaseSlot) (x : Lease) : (s.setLease k x).notices = s.notices := rfl
@[simp] theorem State.setLease_ports (s : State) (k : LeaseSlot) (x : Lease) : (s.setLease k x).ports = s.ports := rfl
@[simp] theorem State.setLease_pending (s : State) (k : LeaseSlot) (x : Lease) : (s.setLease k x).pending = s.pending := rfl
@[simp] theorem State.setLease_now (s : State) (k : LeaseSlot) (x : Lease) : (s.setLease k x).now = s.now := rfl
@[simp] theorem State.setLease_line (s : State) (k : LeaseSlot) (x : Lease) (r : ResourceId) (c : Client) : (s.setLease k x).line r c = s.line r c := rfl
@[simp] theorem State.setLease_resource (s : State) (k : LeaseSlot) (x : Lease) (r : ResourceId) : (s.setLease k x).resource r = s.resource r := rfl
@[simp] theorem State.setLease_waiterRecord (s : State) (k : LeaseSlot) (x : Lease) (j : WaiterSlot) : (s.setLease k x).waiterRecord j = s.waiterRecord j := rfl
@[simp] theorem State.setLease_waiter (s : State) (k : LeaseSlot) (x : Lease) (j : WaiterSlot) : (s.setLease k x).waiter j = s.waiter j := rfl
@[simp] theorem State.setLease_session (s : State) (k : LeaseSlot) (x : Lease) (c : Client) : (s.setLease k x).session c = s.session c := rfl
@[simp] theorem State.setLease_box (s : State) (k : LeaseSlot) (x : Lease) (c : Client) : (s.setLease k x).box c = s.box c := rfl
@[simp] theorem State.setLease_port (s : State) (k : LeaseSlot) (x : Lease) (p : Client) : (s.setLease k x).port p = s.port p := rfl

/-! ### After `setWaiterRecord` -/

@[simp] theorem State.setWaiterRecord_resetHeld (s : State) (k : WaiterSlot) (x : WaiterRecord) : (s.setWaiterRecord k x).resetHeld = s.resetHeld := rfl
@[simp] theorem State.setWaiterRecord_timeBase (s : State) (k : WaiterSlot) (x : WaiterRecord) : (s.setWaiterRecord k x).timeBase = s.timeBase := rfl
@[simp] theorem State.setWaiterRecord_deadlines (s : State) (k : WaiterSlot) (x : WaiterRecord) : (s.setWaiterRecord k x).deadlines = s.deadlines := rfl
@[simp] theorem State.setWaiterRecord_resources (s : State) (k : WaiterSlot) (x : WaiterRecord) : (s.setWaiterRecord k x).resources = s.resources := rfl
@[simp] theorem State.setWaiterRecord_leases (s : State) (k : WaiterSlot) (x : WaiterRecord) : (s.setWaiterRecord k x).leases = s.leases := rfl
@[simp] theorem State.setWaiterRecord_sessions (s : State) (k : WaiterSlot) (x : WaiterRecord) : (s.setWaiterRecord k x).sessions = s.sessions := rfl
@[simp] theorem State.setWaiterRecord_gate (s : State) (k : WaiterSlot) (x : WaiterRecord) : (s.setWaiterRecord k x).gate = s.gate := rfl
@[simp] theorem State.setWaiterRecord_notices (s : State) (k : WaiterSlot) (x : WaiterRecord) : (s.setWaiterRecord k x).notices = s.notices := rfl
@[simp] theorem State.setWaiterRecord_ports (s : State) (k : WaiterSlot) (x : WaiterRecord) : (s.setWaiterRecord k x).ports = s.ports := rfl
@[simp] theorem State.setWaiterRecord_pending (s : State) (k : WaiterSlot) (x : WaiterRecord) : (s.setWaiterRecord k x).pending = s.pending := rfl
@[simp] theorem State.setWaiterRecord_now (s : State) (k : WaiterSlot) (x : WaiterRecord) : (s.setWaiterRecord k x).now = s.now := rfl
@[simp] theorem State.setWaiterRecord_line (s : State) (k : WaiterSlot) (x : WaiterRecord) (r : ResourceId) (c : Client) : (s.setWaiterRecord k x).line r c = s.line r c := rfl
@[simp] theorem State.setWaiterRecord_resource (s : State) (k : WaiterSlot) (x : WaiterRecord) (r : ResourceId) : (s.setWaiterRecord k x).resource r = s.resource r := rfl
@[simp] theorem State.setWaiterRecord_leaseRecord (s : State) (k : WaiterSlot) (x : WaiterRecord) (i : LeaseSlot) : (s.setWaiterRecord k x).leaseRecord i = s.leaseRecord i := rfl
@[simp] theorem State.setWaiterRecord_lease (s : State) (k : WaiterSlot) (x : WaiterRecord) (i : LeaseSlot) : (s.setWaiterRecord k x).lease i = s.lease i := rfl
@[simp] theorem State.setWaiterRecord_session (s : State) (k : WaiterSlot) (x : WaiterRecord) (c : Client) : (s.setWaiterRecord k x).session c = s.session c := rfl
@[simp] theorem State.setWaiterRecord_box (s : State) (k : WaiterSlot) (x : WaiterRecord) (c : Client) : (s.setWaiterRecord k x).box c = s.box c := rfl
@[simp] theorem State.setWaiterRecord_port (s : State) (k : WaiterSlot) (x : WaiterRecord) (p : Client) : (s.setWaiterRecord k x).port p = s.port p := rfl

/-! ### After `setSession` -/

@[simp] theorem State.setSession_resetHeld (s : State) (k : Client) (x : Session) : (s.setSession k x).resetHeld = s.resetHeld := rfl
@[simp] theorem State.setSession_timeBase (s : State) (k : Client) (x : Session) : (s.setSession k x).timeBase = s.timeBase := rfl
@[simp] theorem State.setSession_deadlines (s : State) (k : Client) (x : Session) : (s.setSession k x).deadlines = s.deadlines := rfl
@[simp] theorem State.setSession_resources (s : State) (k : Client) (x : Session) : (s.setSession k x).resources = s.resources := rfl
@[simp] theorem State.setSession_leases (s : State) (k : Client) (x : Session) : (s.setSession k x).leases = s.leases := rfl
@[simp] theorem State.setSession_waiters (s : State) (k : Client) (x : Session) : (s.setSession k x).waiters = s.waiters := rfl
@[simp] theorem State.setSession_gate (s : State) (k : Client) (x : Session) : (s.setSession k x).gate = s.gate := rfl
@[simp] theorem State.setSession_notices (s : State) (k : Client) (x : Session) : (s.setSession k x).notices = s.notices := rfl
@[simp] theorem State.setSession_ports (s : State) (k : Client) (x : Session) : (s.setSession k x).ports = s.ports := rfl
@[simp] theorem State.setSession_pending (s : State) (k : Client) (x : Session) : (s.setSession k x).pending = s.pending := rfl
@[simp] theorem State.setSession_now (s : State) (k : Client) (x : Session) : (s.setSession k x).now = s.now := rfl
@[simp] theorem State.setSession_line (s : State) (k : Client) (x : Session) (r : ResourceId) (c : Client) : (s.setSession k x).line r c = s.line r c := rfl
@[simp] theorem State.setSession_resource (s : State) (k : Client) (x : Session) (r : ResourceId) : (s.setSession k x).resource r = s.resource r := rfl
@[simp] theorem State.setSession_leaseRecord (s : State) (k : Client) (x : Session) (i : LeaseSlot) : (s.setSession k x).leaseRecord i = s.leaseRecord i := rfl
@[simp] theorem State.setSession_lease (s : State) (k : Client) (x : Session) (i : LeaseSlot) : (s.setSession k x).lease i = s.lease i := rfl
@[simp] theorem State.setSession_waiterRecord (s : State) (k : Client) (x : Session) (j : WaiterSlot) : (s.setSession k x).waiterRecord j = s.waiterRecord j := rfl
@[simp] theorem State.setSession_waiter (s : State) (k : Client) (x : Session) (j : WaiterSlot) : (s.setSession k x).waiter j = s.waiter j := rfl
@[simp] theorem State.setSession_box (s : State) (k : Client) (x : Session) (c : Client) : (s.setSession k x).box c = s.box c := rfl
@[simp] theorem State.setSession_port (s : State) (k : Client) (x : Session) (p : Client) : (s.setSession k x).port p = s.port p := rfl

/-! ### After `setBox` -/

@[simp] theorem State.setBox_resetHeld (s : State) (k : Client) (x : NoticeBox) : (s.setBox k x).resetHeld = s.resetHeld := rfl
@[simp] theorem State.setBox_timeBase (s : State) (k : Client) (x : NoticeBox) : (s.setBox k x).timeBase = s.timeBase := rfl
@[simp] theorem State.setBox_deadlines (s : State) (k : Client) (x : NoticeBox) : (s.setBox k x).deadlines = s.deadlines := rfl
@[simp] theorem State.setBox_resources (s : State) (k : Client) (x : NoticeBox) : (s.setBox k x).resources = s.resources := rfl
@[simp] theorem State.setBox_leases (s : State) (k : Client) (x : NoticeBox) : (s.setBox k x).leases = s.leases := rfl
@[simp] theorem State.setBox_waiters (s : State) (k : Client) (x : NoticeBox) : (s.setBox k x).waiters = s.waiters := rfl
@[simp] theorem State.setBox_sessions (s : State) (k : Client) (x : NoticeBox) : (s.setBox k x).sessions = s.sessions := rfl
@[simp] theorem State.setBox_gate (s : State) (k : Client) (x : NoticeBox) : (s.setBox k x).gate = s.gate := rfl
@[simp] theorem State.setBox_ports (s : State) (k : Client) (x : NoticeBox) : (s.setBox k x).ports = s.ports := rfl
@[simp] theorem State.setBox_pending (s : State) (k : Client) (x : NoticeBox) : (s.setBox k x).pending = s.pending := rfl
@[simp] theorem State.setBox_now (s : State) (k : Client) (x : NoticeBox) : (s.setBox k x).now = s.now := rfl
@[simp] theorem State.setBox_line (s : State) (k : Client) (x : NoticeBox) (r : ResourceId) (c : Client) : (s.setBox k x).line r c = s.line r c := rfl
@[simp] theorem State.setBox_resource (s : State) (k : Client) (x : NoticeBox) (r : ResourceId) : (s.setBox k x).resource r = s.resource r := rfl
@[simp] theorem State.setBox_leaseRecord (s : State) (k : Client) (x : NoticeBox) (i : LeaseSlot) : (s.setBox k x).leaseRecord i = s.leaseRecord i := rfl
@[simp] theorem State.setBox_lease (s : State) (k : Client) (x : NoticeBox) (i : LeaseSlot) : (s.setBox k x).lease i = s.lease i := rfl
@[simp] theorem State.setBox_waiterRecord (s : State) (k : Client) (x : NoticeBox) (j : WaiterSlot) : (s.setBox k x).waiterRecord j = s.waiterRecord j := rfl
@[simp] theorem State.setBox_waiter (s : State) (k : Client) (x : NoticeBox) (j : WaiterSlot) : (s.setBox k x).waiter j = s.waiter j := rfl
@[simp] theorem State.setBox_session (s : State) (k : Client) (x : NoticeBox) (c : Client) : (s.setBox k x).session c = s.session c := rfl
@[simp] theorem State.setBox_port (s : State) (k : Client) (x : NoticeBox) (p : Client) : (s.setBox k x).port p = s.port p := rfl

/-! ### After `setPort` -/

@[simp] theorem State.setPort_resetHeld (s : State) (k : Client) (x : Port) : (s.setPort k x).resetHeld = s.resetHeld := rfl
@[simp] theorem State.setPort_timeBase (s : State) (k : Client) (x : Port) : (s.setPort k x).timeBase = s.timeBase := rfl
@[simp] theorem State.setPort_deadlines (s : State) (k : Client) (x : Port) : (s.setPort k x).deadlines = s.deadlines := rfl
@[simp] theorem State.setPort_resources (s : State) (k : Client) (x : Port) : (s.setPort k x).resources = s.resources := rfl
@[simp] theorem State.setPort_leases (s : State) (k : Client) (x : Port) : (s.setPort k x).leases = s.leases := rfl
@[simp] theorem State.setPort_waiters (s : State) (k : Client) (x : Port) : (s.setPort k x).waiters = s.waiters := rfl
@[simp] theorem State.setPort_sessions (s : State) (k : Client) (x : Port) : (s.setPort k x).sessions = s.sessions := rfl
@[simp] theorem State.setPort_gate (s : State) (k : Client) (x : Port) : (s.setPort k x).gate = s.gate := rfl
@[simp] theorem State.setPort_notices (s : State) (k : Client) (x : Port) : (s.setPort k x).notices = s.notices := rfl
@[simp] theorem State.setPort_pending (s : State) (k : Client) (x : Port) : (s.setPort k x).pending = s.pending := rfl
@[simp] theorem State.setPort_now (s : State) (k : Client) (x : Port) : (s.setPort k x).now = s.now := rfl
@[simp] theorem State.setPort_line (s : State) (k : Client) (x : Port) (r : ResourceId) (c : Client) : (s.setPort k x).line r c = s.line r c := rfl
@[simp] theorem State.setPort_resource (s : State) (k : Client) (x : Port) (r : ResourceId) : (s.setPort k x).resource r = s.resource r := rfl
@[simp] theorem State.setPort_leaseRecord (s : State) (k : Client) (x : Port) (i : LeaseSlot) : (s.setPort k x).leaseRecord i = s.leaseRecord i := rfl
@[simp] theorem State.setPort_lease (s : State) (k : Client) (x : Port) (i : LeaseSlot) : (s.setPort k x).lease i = s.lease i := rfl
@[simp] theorem State.setPort_waiterRecord (s : State) (k : Client) (x : Port) (j : WaiterSlot) : (s.setPort k x).waiterRecord j = s.waiterRecord j := rfl
@[simp] theorem State.setPort_waiter (s : State) (k : Client) (x : Port) (j : WaiterSlot) : (s.setPort k x).waiter j = s.waiter j := rfl
@[simp] theorem State.setPort_session (s : State) (k : Client) (x : Port) (c : Client) : (s.setPort k x).session c = s.session c := rfl
@[simp] theorem State.setPort_box (s : State) (k : Client) (x : Port) (c : Client) : (s.setPort k x).box c = s.box c := rfl

/-! ### After `setDeadlines` -/

@[simp] theorem State.setDeadlines_resetHeld (s : State) (x : DeadlineList) : (s.setDeadlines x).resetHeld = s.resetHeld := rfl
@[simp] theorem State.setDeadlines_timeBase (s : State) (x : DeadlineList) : (s.setDeadlines x).timeBase = s.timeBase := rfl
@[simp] theorem State.setDeadlines_resources (s : State) (x : DeadlineList) : (s.setDeadlines x).resources = s.resources := rfl
@[simp] theorem State.setDeadlines_leases (s : State) (x : DeadlineList) : (s.setDeadlines x).leases = s.leases := rfl
@[simp] theorem State.setDeadlines_waiters (s : State) (x : DeadlineList) : (s.setDeadlines x).waiters = s.waiters := rfl
@[simp] theorem State.setDeadlines_sessions (s : State) (x : DeadlineList) : (s.setDeadlines x).sessions = s.sessions := rfl
@[simp] theorem State.setDeadlines_gate (s : State) (x : DeadlineList) : (s.setDeadlines x).gate = s.gate := rfl
@[simp] theorem State.setDeadlines_notices (s : State) (x : DeadlineList) : (s.setDeadlines x).notices = s.notices := rfl
@[simp] theorem State.setDeadlines_ports (s : State) (x : DeadlineList) : (s.setDeadlines x).ports = s.ports := rfl
@[simp] theorem State.setDeadlines_pending (s : State) (x : DeadlineList) : (s.setDeadlines x).pending = s.pending := rfl
@[simp] theorem State.setDeadlines_deadlines (s : State) (x : DeadlineList) : (s.setDeadlines x).deadlines = x := rfl
@[simp] theorem State.setDeadlines_now (s : State) (x : DeadlineList) : (s.setDeadlines x).now = s.now := rfl
@[simp] theorem State.setDeadlines_line (s : State) (x : DeadlineList) (r : ResourceId) (c : Client) : (s.setDeadlines x).line r c = s.line r c := rfl
@[simp] theorem State.setDeadlines_resource (s : State) (x : DeadlineList) (r : ResourceId) : (s.setDeadlines x).resource r = s.resource r := rfl
@[simp] theorem State.setDeadlines_leaseRecord (s : State) (x : DeadlineList) (i : LeaseSlot) : (s.setDeadlines x).leaseRecord i = s.leaseRecord i := rfl
@[simp] theorem State.setDeadlines_lease (s : State) (x : DeadlineList) (i : LeaseSlot) : (s.setDeadlines x).lease i = s.lease i := rfl
@[simp] theorem State.setDeadlines_waiterRecord (s : State) (x : DeadlineList) (j : WaiterSlot) : (s.setDeadlines x).waiterRecord j = s.waiterRecord j := rfl
@[simp] theorem State.setDeadlines_waiter (s : State) (x : DeadlineList) (j : WaiterSlot) : (s.setDeadlines x).waiter j = s.waiter j := rfl
@[simp] theorem State.setDeadlines_session (s : State) (x : DeadlineList) (c : Client) : (s.setDeadlines x).session c = s.session c := rfl
@[simp] theorem State.setDeadlines_box (s : State) (x : DeadlineList) (c : Client) : (s.setDeadlines x).box c = s.box c := rfl
@[simp] theorem State.setDeadlines_port (s : State) (x : DeadlineList) (p : Client) : (s.setDeadlines x).port p = s.port p := rfl

/-! ### After `setGate` -/

@[simp] theorem State.setGate_resetHeld (s : State) (x : Gate) : (s.setGate x).resetHeld = s.resetHeld := rfl
@[simp] theorem State.setGate_timeBase (s : State) (x : Gate) : (s.setGate x).timeBase = s.timeBase := rfl
@[simp] theorem State.setGate_deadlines (s : State) (x : Gate) : (s.setGate x).deadlines = s.deadlines := rfl
@[simp] theorem State.setGate_resources (s : State) (x : Gate) : (s.setGate x).resources = s.resources := rfl
@[simp] theorem State.setGate_leases (s : State) (x : Gate) : (s.setGate x).leases = s.leases := rfl
@[simp] theorem State.setGate_waiters (s : State) (x : Gate) : (s.setGate x).waiters = s.waiters := rfl
@[simp] theorem State.setGate_sessions (s : State) (x : Gate) : (s.setGate x).sessions = s.sessions := rfl
@[simp] theorem State.setGate_notices (s : State) (x : Gate) : (s.setGate x).notices = s.notices := rfl
@[simp] theorem State.setGate_ports (s : State) (x : Gate) : (s.setGate x).ports = s.ports := rfl
@[simp] theorem State.setGate_pending (s : State) (x : Gate) : (s.setGate x).pending = s.pending := rfl
@[simp] theorem State.setGate_gate (s : State) (x : Gate) : (s.setGate x).gate = x := rfl
@[simp] theorem State.setGate_now (s : State) (x : Gate) : (s.setGate x).now = s.now := rfl
@[simp] theorem State.setGate_resource (s : State) (x : Gate) (r : ResourceId) : (s.setGate x).resource r = s.resource r := rfl
@[simp] theorem State.setGate_leaseRecord (s : State) (x : Gate) (i : LeaseSlot) : (s.setGate x).leaseRecord i = s.leaseRecord i := rfl
@[simp] theorem State.setGate_lease (s : State) (x : Gate) (i : LeaseSlot) : (s.setGate x).lease i = s.lease i := rfl
@[simp] theorem State.setGate_waiterRecord (s : State) (x : Gate) (j : WaiterSlot) : (s.setGate x).waiterRecord j = s.waiterRecord j := rfl
@[simp] theorem State.setGate_waiter (s : State) (x : Gate) (j : WaiterSlot) : (s.setGate x).waiter j = s.waiter j := rfl
@[simp] theorem State.setGate_session (s : State) (x : Gate) (c : Client) : (s.setGate x).session c = s.session c := rfl
@[simp] theorem State.setGate_box (s : State) (x : Gate) (c : Client) : (s.setGate x).box c = s.box c := rfl
@[simp] theorem State.setGate_port (s : State) (x : Gate) (p : Client) : (s.setGate x).port p = s.port p := rfl

/-! ### After `setTimeBase` -/

@[simp] theorem State.setTimeBase_resetHeld (s : State) (x : TimeBase) : (s.setTimeBase x).resetHeld = s.resetHeld := rfl
@[simp] theorem State.setTimeBase_deadlines (s : State) (x : TimeBase) : (s.setTimeBase x).deadlines = s.deadlines := rfl
@[simp] theorem State.setTimeBase_resources (s : State) (x : TimeBase) : (s.setTimeBase x).resources = s.resources := rfl
@[simp] theorem State.setTimeBase_leases (s : State) (x : TimeBase) : (s.setTimeBase x).leases = s.leases := rfl
@[simp] theorem State.setTimeBase_waiters (s : State) (x : TimeBase) : (s.setTimeBase x).waiters = s.waiters := rfl
@[simp] theorem State.setTimeBase_sessions (s : State) (x : TimeBase) : (s.setTimeBase x).sessions = s.sessions := rfl
@[simp] theorem State.setTimeBase_gate (s : State) (x : TimeBase) : (s.setTimeBase x).gate = s.gate := rfl
@[simp] theorem State.setTimeBase_notices (s : State) (x : TimeBase) : (s.setTimeBase x).notices = s.notices := rfl
@[simp] theorem State.setTimeBase_ports (s : State) (x : TimeBase) : (s.setTimeBase x).ports = s.ports := rfl
@[simp] theorem State.setTimeBase_pending (s : State) (x : TimeBase) : (s.setTimeBase x).pending = s.pending := rfl
@[simp] theorem State.setTimeBase_timeBase (s : State) (x : TimeBase) : (s.setTimeBase x).timeBase = x := rfl
@[simp] theorem State.setTimeBase_line (s : State) (x : TimeBase) (r : ResourceId) (c : Client) : (s.setTimeBase x).line r c = s.line r c := rfl
@[simp] theorem State.setTimeBase_resource (s : State) (x : TimeBase) (r : ResourceId) : (s.setTimeBase x).resource r = s.resource r := rfl
@[simp] theorem State.setTimeBase_leaseRecord (s : State) (x : TimeBase) (i : LeaseSlot) : (s.setTimeBase x).leaseRecord i = s.leaseRecord i := rfl
@[simp] theorem State.setTimeBase_lease (s : State) (x : TimeBase) (i : LeaseSlot) : (s.setTimeBase x).lease i = s.lease i := rfl
@[simp] theorem State.setTimeBase_waiterRecord (s : State) (x : TimeBase) (j : WaiterSlot) : (s.setTimeBase x).waiterRecord j = s.waiterRecord j := rfl
@[simp] theorem State.setTimeBase_waiter (s : State) (x : TimeBase) (j : WaiterSlot) : (s.setTimeBase x).waiter j = s.waiter j := rfl
@[simp] theorem State.setTimeBase_session (s : State) (x : TimeBase) (c : Client) : (s.setTimeBase x).session c = s.session c := rfl
@[simp] theorem State.setTimeBase_box (s : State) (x : TimeBase) (c : Client) : (s.setTimeBase x).box c = s.box c := rfl
@[simp] theorem State.setTimeBase_port (s : State) (x : TimeBase) (p : Client) : (s.setTimeBase x).port p = s.port p := rfl

/-! ### A record reads as written -/

/-- After writing record `k`, record `i` reads as written when it is `k` and as before when it is not. -/
theorem State.setResource_resource (s : State) (k i : ResourceId) (x : Resource) :
    (s.setResource k x).resource i = if i = k then x else s.resource i := by
  by_cases h : i = k
  · subst h; simp [State.resource, State.setResource]
  · have : ¬ k.val = i.val := fun e => h (Fin.ext e.symm)
    simp [State.resource, State.setResource, h, this]

@[simp] theorem State.setResource_resource_self (s : State) (k : ResourceId) (x : Resource) : (s.setResource k x).resource k = x := by
  simp [State.setResource_resource]

theorem State.setResource_resource_of_ne (s : State) (k i : ResourceId) (x : Resource) (h : i ≠ k) :
    (s.setResource k x).resource i = s.resource i := by
  simp [State.setResource_resource, h]

/-- After writing record `k`, record `i` reads as written when it is `k` and as before when it is not. -/
theorem State.setLeaseRecord_leaseRecord (s : State) (k i : LeaseSlot) (x : LeaseRecord) :
    (s.setLeaseRecord k x).leaseRecord i = if i = k then x else s.leaseRecord i := by
  by_cases h : i = k
  · subst h; simp [State.leaseRecord, State.setLeaseRecord]
  · have : ¬ k.val = i.val := fun e => h (Fin.ext e.symm)
    simp [State.leaseRecord, State.setLeaseRecord, h, this]

@[simp] theorem State.setLeaseRecord_leaseRecord_self (s : State) (k : LeaseSlot) (x : LeaseRecord) : (s.setLeaseRecord k x).leaseRecord k = x := by
  simp [State.setLeaseRecord_leaseRecord]

theorem State.setLeaseRecord_leaseRecord_of_ne (s : State) (k i : LeaseSlot) (x : LeaseRecord) (h : i ≠ k) :
    (s.setLeaseRecord k x).leaseRecord i = s.leaseRecord i := by
  simp [State.setLeaseRecord_leaseRecord, h]

/-- After writing record `k`, record `i` reads as written when it is `k` and as before when it is not. -/
theorem State.setWaiterRecord_waiterRecord (s : State) (k i : WaiterSlot) (x : WaiterRecord) :
    (s.setWaiterRecord k x).waiterRecord i = if i = k then x else s.waiterRecord i := by
  by_cases h : i = k
  · subst h; simp [State.waiterRecord, State.setWaiterRecord]
  · have : ¬ k.val = i.val := fun e => h (Fin.ext e.symm)
    simp [State.waiterRecord, State.setWaiterRecord, h, this]

@[simp] theorem State.setWaiterRecord_waiterRecord_self (s : State) (k : WaiterSlot) (x : WaiterRecord) : (s.setWaiterRecord k x).waiterRecord k = x := by
  simp [State.setWaiterRecord_waiterRecord]

theorem State.setWaiterRecord_waiterRecord_of_ne (s : State) (k i : WaiterSlot) (x : WaiterRecord) (h : i ≠ k) :
    (s.setWaiterRecord k x).waiterRecord i = s.waiterRecord i := by
  simp [State.setWaiterRecord_waiterRecord, h]

/-- After writing record `k`, record `i` reads as written when it is `k` and as before when it is not. -/
theorem State.setSession_session (s : State) (k i : Client) (x : Session) :
    (s.setSession k x).session i = if i = k then x else s.session i := by
  by_cases h : i = k
  · subst h; simp [State.session, State.setSession]
  · have : ¬ k.val = i.val := fun e => h (Fin.ext e.symm)
    simp [State.session, State.setSession, h, this]

@[simp] theorem State.setSession_session_self (s : State) (k : Client) (x : Session) : (s.setSession k x).session k = x := by
  simp [State.setSession_session]

theorem State.setSession_session_of_ne (s : State) (k i : Client) (x : Session) (h : i ≠ k) :
    (s.setSession k x).session i = s.session i := by
  simp [State.setSession_session, h]

/-- After writing record `k`, record `i` reads as written when it is `k` and as before when it is not. -/
theorem State.setBox_box (s : State) (k i : Client) (x : NoticeBox) :
    (s.setBox k x).box i = if i = k then x else s.box i := by
  by_cases h : i = k
  · subst h; simp [State.box, State.setBox]
  · have : ¬ k.val = i.val := fun e => h (Fin.ext e.symm)
    simp [State.box, State.setBox, h, this]

@[simp] theorem State.setBox_box_self (s : State) (k : Client) (x : NoticeBox) : (s.setBox k x).box k = x := by
  simp [State.setBox_box]

theorem State.setBox_box_of_ne (s : State) (k i : Client) (x : NoticeBox) (h : i ≠ k) :
    (s.setBox k x).box i = s.box i := by
  simp [State.setBox_box, h]

/-- After writing record `k`, record `i` reads as written when it is `k` and as before when it is not. -/
theorem State.setPort_port (s : State) (k i : Client) (x : Port) :
    (s.setPort k x).port i = if i = k then x else s.port i := by
  by_cases h : i = k
  · subst h; simp [State.port, State.setPort]
  · have : ¬ k.val = i.val := fun e => h (Fin.ext e.symm)
    simp [State.port, State.setPort, h, this]

@[simp] theorem State.setPort_port_self (s : State) (k : Client) (x : Port) : (s.setPort k x).port k = x := by
  simp [State.setPort_port]

theorem State.setPort_port_of_ne (s : State) (k i : Client) (x : Port) (h : i ≠ k) :
    (s.setPort k x).port i = s.port i := by
  simp [State.setPort_port, h]

/-! ### Leases and waiters in their slots -/

theorem State.setLeaseRecord_lease (s : State) (k i : LeaseSlot) (x : LeaseRecord) :
    (s.setLeaseRecord k x).lease i = if i = k then x.lease else s.lease i := by
  by_cases h : i = k <;> simp [State.lease, State.setLeaseRecord_leaseRecord, h]

theorem State.setWaiterRecord_waiter (s : State) (k i : WaiterSlot) (x : WaiterRecord) :
    (s.setWaiterRecord k x).waiter i = if i = k then x.waiter else s.waiter i := by
  by_cases h : i = k <;> simp [State.waiter, State.setWaiterRecord_waiterRecord, h]

/-- Writing the lease of a slot keeps every slot's incarnation and previous end cause. -/
theorem State.setLease_leaseRecord (s : State) (k i : LeaseSlot) (l : Lease) :
    (s.setLease k l).leaseRecord i = if i = k then { s.leaseRecord k with lease := some l } else s.leaseRecord i := by
  simp [State.setLease, State.setLeaseRecord_leaseRecord]

theorem State.setLease_lease (s : State) (k i : LeaseSlot) (l : Lease) :
    (s.setLease k l).lease i = if i = k then some l else s.lease i := by
  simp [State.setLease, State.setLeaseRecord_lease]

@[simp] theorem State.setLease_lease_self (s : State) (k : LeaseSlot) (l : Lease) :
    (s.setLease k l).lease k = some l := by simp [State.setLease_lease]

@[simp] theorem State.setLease_incarnation (s : State) (k i : LeaseSlot) (l : Lease) :
    ((s.setLease k l).leaseRecord i).incarnation = (s.leaseRecord i).incarnation := by
  by_cases h : i = k <;> simp [State.setLease_leaseRecord, h]

/-! ### Writing a record the value it has -/

theorem State.setResource_resource_eq (s : State) (r : ResourceId) : s.setResource r (s.resource r) = s := by
  simp [State.setResource, State.resource]

theorem State.setBox_box_eq (s : State) (c : Client) : s.setBox c (s.box c) = s := by
  simp [State.setBox, State.box]

theorem State.setPort_port_eq (s : State) (p : Client) : s.setPort p (s.port p) = s := by
  simp [State.setPort, State.port]

end Sys2Proof.Machine
end

