-- ==== Sys2Proof/Laws/Ops.lean ====
section
/-!
SUPPORT. What each shared operation of Machine/Ops.lean does: the part of the state it writes, and that every other part
reads as before.
-/

namespace Sys2Proof.Machine

/-! ### After an arm command (R101): every other part of the state reads as before -/

@[simp] theorem State.arm_resetHeld (s : State) (e : Entry) :
    (s.arm e).resetHeld = s.resetHeld := rfl
@[simp] theorem State.arm_timeBase (s : State) (e : Entry) :
    (s.arm e).timeBase = s.timeBase := rfl
@[simp] theorem State.arm_pending (s : State) (e : Entry) :
    (s.arm e).pending = s.pending := rfl
@[simp] theorem State.arm_now (s : State) (e : Entry) :
    (s.arm e).now = s.now := rfl
@[simp] theorem State.arm_gate (s : State) (e : Entry) :
    (s.arm e).gate = s.gate := rfl
@[simp] theorem State.arm_line (s : State) (e : Entry) (r : ResourceId) (c : Client) :
    (s.arm e).line r c = s.line r c := rfl
@[simp] theorem State.arm_resource (s : State) (e : Entry) (r : ResourceId) :
    (s.arm e).resource r = s.resource r := rfl
@[simp] theorem State.arm_leaseRecord (s : State) (e : Entry) (k : LeaseSlot) :
    (s.arm e).leaseRecord k = s.leaseRecord k := rfl
@[simp] theorem State.arm_lease (s : State) (e : Entry) (k : LeaseSlot) :
    (s.arm e).lease k = s.lease k := rfl
@[simp] theorem State.arm_waiterRecord (s : State) (e : Entry) (k : WaiterSlot) :
    (s.arm e).waiterRecord k = s.waiterRecord k := rfl
@[simp] theorem State.arm_waiter (s : State) (e : Entry) (k : WaiterSlot) :
    (s.arm e).waiter k = s.waiter k := rfl
@[simp] theorem State.arm_session (s : State) (e : Entry) (c : Client) :
    (s.arm e).session c = s.session c := rfl
@[simp] theorem State.arm_box (s : State) (e : Entry) (c : Client) :
    (s.arm e).box c = s.box c := rfl
@[simp] theorem State.arm_port (s : State) (e : Entry) (p : Client) :
    (s.arm e).port p = s.port p := rfl

/-! ### After a cancel command (R102): every other part of the state reads as before -/

@[simp] theorem State.disarm_resetHeld (s : State) (o : Owner) :
    (s.disarm o).resetHeld = s.resetHeld := rfl
@[simp] theorem State.disarm_timeBase (s : State) (o : Owner) :
    (s.disarm o).timeBase = s.timeBase := rfl
@[simp] theorem State.disarm_pending (s : State) (o : Owner) :
    (s.disarm o).pending = s.pending := rfl
@[simp] theorem State.disarm_now (s : State) (o : Owner) :
    (s.disarm o).now = s.now := rfl
@[simp] theorem State.disarm_gate (s : State) (o : Owner) :
    (s.disarm o).gate = s.gate := rfl
@[simp] theorem State.disarm_line (s : State) (o : Owner) (r : ResourceId) (c : Client) :
    (s.disarm o).line r c = s.line r c := rfl
@[simp] theorem State.disarm_resource (s : State) (o : Owner) (r : ResourceId) :
    (s.disarm o).resource r = s.resource r := rfl
@[simp] theorem State.disarm_leaseRecord (s : State) (o : Owner) (k : LeaseSlot) :
    (s.disarm o).leaseRecord k = s.leaseRecord k := rfl
@[simp] theorem State.disarm_lease (s : State) (o : Owner) (k : LeaseSlot) :
    (s.disarm o).lease k = s.lease k := rfl
@[simp] theorem State.disarm_waiterRecord (s : State) (o : Owner) (k : WaiterSlot) :
    (s.disarm o).waiterRecord k = s.waiterRecord k := rfl
@[simp] theorem State.disarm_waiter (s : State) (o : Owner) (k : WaiterSlot) :
    (s.disarm o).waiter k = s.waiter k := rfl
@[simp] theorem State.disarm_session (s : State) (o : Owner) (c : Client) :
    (s.disarm o).session c = s.session c := rfl
@[simp] theorem State.disarm_box (s : State) (o : Owner) (c : Client) :
    (s.disarm o).box c = s.box c := rfl
@[simp] theorem State.disarm_port (s : State) (o : Owner) (p : Client) :
    (s.disarm o).port p = s.port p := rfl

/-! ### After a lease's entry is armed: every other part of the state reads as before -/

@[simp] theorem State.armLease_resetHeld (s : State) (i : LeaseSlot) (l : Lease) :
    (s.armLease i l).resetHeld = s.resetHeld := rfl
@[simp] theorem State.armLease_timeBase (s : State) (i : LeaseSlot) (l : Lease) :
    (s.armLease i l).timeBase = s.timeBase := rfl
@[simp] theorem State.armLease_pending (s : State) (i : LeaseSlot) (l : Lease) :
    (s.armLease i l).pending = s.pending := rfl
@[simp] theorem State.armLease_now (s : State) (i : LeaseSlot) (l : Lease) :
    (s.armLease i l).now = s.now := rfl
@[simp] theorem State.armLease_gate (s : State) (i : LeaseSlot) (l : Lease) :
    (s.armLease i l).gate = s.gate := rfl
@[simp] theorem State.armLease_line (s : State) (i : LeaseSlot) (l : Lease) (r : ResourceId) (c : Client) :
    (s.armLease i l).line r c = s.line r c := rfl
@[simp] theorem State.armLease_resource (s : State) (i : LeaseSlot) (l : Lease) (r : ResourceId) :
    (s.armLease i l).resource r = s.resource r := rfl
@[simp] theorem State.armLease_leaseRecord (s : State) (i : LeaseSlot) (l : Lease) (k : LeaseSlot) :
    (s.armLease i l).leaseRecord k = s.leaseRecord k := rfl
@[simp] theorem State.armLease_lease (s : State) (i : LeaseSlot) (l : Lease) (k : LeaseSlot) :
    (s.armLease i l).lease k = s.lease k := rfl
@[simp] theorem State.armLease_waiterRecord (s : State) (i : LeaseSlot) (l : Lease) (k : WaiterSlot) :
    (s.armLease i l).waiterRecord k = s.waiterRecord k := rfl
@[simp] theorem State.armLease_waiter (s : State) (i : LeaseSlot) (l : Lease) (k : WaiterSlot) :
    (s.armLease i l).waiter k = s.waiter k := rfl
@[simp] theorem State.armLease_session (s : State) (i : LeaseSlot) (l : Lease) (c : Client) :
    (s.armLease i l).session c = s.session c := rfl
@[simp] theorem State.armLease_box (s : State) (i : LeaseSlot) (l : Lease) (c : Client) :
    (s.armLease i l).box c = s.box c := rfl
@[simp] theorem State.armLease_port (s : State) (i : LeaseSlot) (l : Lease) (p : Client) :
    (s.armLease i l).port p = s.port p := rfl

/-! ### After a cut command (R15): every other part of the state reads as before -/

@[simp] theorem State.cutLine_resetHeld (s : State) (x : Line) :
    (s.cutLine x).resetHeld = s.resetHeld := rfl
@[simp] theorem State.cutLine_timeBase (s : State) (x : Line) :
    (s.cutLine x).timeBase = s.timeBase := rfl
@[simp] theorem State.cutLine_deadlines (s : State) (x : Line) :
    (s.cutLine x).deadlines = s.deadlines := rfl
@[simp] theorem State.cutLine_pending (s : State) (x : Line) :
    (s.cutLine x).pending = s.pending := rfl
@[simp] theorem State.cutLine_now (s : State) (x : Line) :
    (s.cutLine x).now = s.now := rfl
@[simp] theorem State.cutLine_resource (s : State) (x : Line) (r : ResourceId) :
    (s.cutLine x).resource r = s.resource r := rfl
@[simp] theorem State.cutLine_leaseRecord (s : State) (x : Line) (k : LeaseSlot) :
    (s.cutLine x).leaseRecord k = s.leaseRecord k := rfl
@[simp] theorem State.cutLine_lease (s : State) (x : Line) (k : LeaseSlot) :
    (s.cutLine x).lease k = s.lease k := rfl
@[simp] theorem State.cutLine_waiterRecord (s : State) (x : Line) (k : WaiterSlot) :
    (s.cutLine x).waiterRecord k = s.waiterRecord k := rfl
@[simp] theorem State.cutLine_waiter (s : State) (x : Line) (k : WaiterSlot) :
    (s.cutLine x).waiter k = s.waiter k := rfl
@[simp] theorem State.cutLine_session (s : State) (x : Line) (c : Client) :
    (s.cutLine x).session c = s.session c := rfl
@[simp] theorem State.cutLine_box (s : State) (x : Line) (c : Client) :
    (s.cutLine x).box c = s.box c := rfl
@[simp] theorem State.cutLine_port (s : State) (x : Line) (p : Client) :
    (s.cutLine x).port p = s.port p := rfl

/-! ### After a set command (R16): every other part of the state reads as before -/

@[simp] theorem State.holdSet_resetHeld (s : State) (x : Line) :
    (s.holdSet x).resetHeld = s.resetHeld := rfl
@[simp] theorem State.holdSet_timeBase (s : State) (x : Line) :
    (s.holdSet x).timeBase = s.timeBase := rfl
@[simp] theorem State.holdSet_deadlines (s : State) (x : Line) :
    (s.holdSet x).deadlines = s.deadlines := rfl
@[simp] theorem State.holdSet_pending (s : State) (x : Line) :
    (s.holdSet x).pending = s.pending := rfl
@[simp] theorem State.holdSet_now (s : State) (x : Line) :
    (s.holdSet x).now = s.now := rfl
@[simp] theorem State.holdSet_line (s : State) (x : Line) (r : ResourceId) (c : Client) :
    (s.holdSet x).line r c = s.line r c := rfl
@[simp] theorem State.holdSet_resource (s : State) (x : Line) (r : ResourceId) :
    (s.holdSet x).resource r = s.resource r := rfl
@[simp] theorem State.holdSet_leaseRecord (s : State) (x : Line) (k : LeaseSlot) :
    (s.holdSet x).leaseRecord k = s.leaseRecord k := rfl
@[simp] theorem State.holdSet_lease (s : State) (x : Line) (k : LeaseSlot) :
    (s.holdSet x).lease k = s.lease k := rfl
@[simp] theorem State.holdSet_waiterRecord (s : State) (x : Line) (k : WaiterSlot) :
    (s.holdSet x).waiterRecord k = s.waiterRecord k := rfl
@[simp] theorem State.holdSet_waiter (s : State) (x : Line) (k : WaiterSlot) :
    (s.holdSet x).waiter k = s.waiter k := rfl
@[simp] theorem State.holdSet_session (s : State) (x : Line) (c : Client) :
    (s.holdSet x).session c = s.session c := rfl
@[simp] theorem State.holdSet_box (s : State) (x : Line) (c : Client) :
    (s.holdSet x).box c = s.box c := rfl
@[simp] theorem State.holdSet_port (s : State) (x : Line) (p : Client) :
    (s.holdSet x).port p = s.port p := rfl

/-! ### After an engine event begins: every other part of the state reads as before -/

@[simp] theorem State.beginEvent_resetHeld (s : State) :
    (s.beginEvent).resetHeld = s.resetHeld := rfl
@[simp] theorem State.beginEvent_timeBase (s : State) :
    (s.beginEvent).timeBase = s.timeBase := rfl
@[simp] theorem State.beginEvent_deadlines (s : State) :
    (s.beginEvent).deadlines = s.deadlines := rfl
@[simp] theorem State.beginEvent_pending (s : State) :
    (s.beginEvent).pending = s.pending := rfl
@[simp] theorem State.beginEvent_now (s : State) :
    (s.beginEvent).now = s.now := rfl
@[simp] theorem State.beginEvent_line (s : State) (r : ResourceId) (c : Client) :
    (s.beginEvent).line r c = s.line r c := rfl
@[simp] theorem State.beginEvent_resource (s : State) (r : ResourceId) :
    (s.beginEvent).resource r = s.resource r := rfl
@[simp] theorem State.beginEvent_leaseRecord (s : State) (k : LeaseSlot) :
    (s.beginEvent).leaseRecord k = s.leaseRecord k := rfl
@[simp] theorem State.beginEvent_lease (s : State) (k : LeaseSlot) :
    (s.beginEvent).lease k = s.lease k := rfl
@[simp] theorem State.beginEvent_waiterRecord (s : State) (k : WaiterSlot) :
    (s.beginEvent).waiterRecord k = s.waiterRecord k := rfl
@[simp] theorem State.beginEvent_waiter (s : State) (k : WaiterSlot) :
    (s.beginEvent).waiter k = s.waiter k := rfl
@[simp] theorem State.beginEvent_session (s : State) (c : Client) :
    (s.beginEvent).session c = s.session c := rfl
@[simp] theorem State.beginEvent_box (s : State) (c : Client) :
    (s.beginEvent).box c = s.box c := rfl
@[simp] theorem State.beginEvent_port (s : State) (p : Client) :
    (s.beginEvent).port p = s.port p := rfl

/-! ### After an engine event ends: every other part of the state reads as before -/

@[simp] theorem State.endEvent_resetHeld (s : State) :
    (s.endEvent).resetHeld = s.resetHeld := rfl
@[simp] theorem State.endEvent_timeBase (s : State) :
    (s.endEvent).timeBase = s.timeBase := rfl
@[simp] theorem State.endEvent_deadlines (s : State) :
    (s.endEvent).deadlines = s.deadlines := rfl
@[simp] theorem State.endEvent_pending (s : State) :
    (s.endEvent).pending = s.pending := rfl
@[simp] theorem State.endEvent_now (s : State) :
    (s.endEvent).now = s.now := rfl
@[simp] theorem State.endEvent_resource (s : State) (r : ResourceId) :
    (s.endEvent).resource r = s.resource r := rfl
@[simp] theorem State.endEvent_leaseRecord (s : State) (k : LeaseSlot) :
    (s.endEvent).leaseRecord k = s.leaseRecord k := rfl
@[simp] theorem State.endEvent_lease (s : State) (k : LeaseSlot) :
    (s.endEvent).lease k = s.lease k := rfl
@[simp] theorem State.endEvent_waiterRecord (s : State) (k : WaiterSlot) :
    (s.endEvent).waiterRecord k = s.waiterRecord k := rfl
@[simp] theorem State.endEvent_waiter (s : State) (k : WaiterSlot) :
    (s.endEvent).waiter k = s.waiter k := rfl
@[simp] theorem State.endEvent_session (s : State) (c : Client) :
    (s.endEvent).session c = s.session c := rfl
@[simp] theorem State.endEvent_box (s : State) (c : Client) :
    (s.endEvent).box c = s.box c := rfl
@[simp] theorem State.endEvent_port (s : State) (p : Client) :
    (s.endEvent).port p = s.port p := rfl

/-! ### After a post: every other part of the state reads as before -/

@[simp] theorem State.post_resetHeld (s : State) (d : Client) (body : NoticeBody) :
    (s.post d body).resetHeld = s.resetHeld := rfl
@[simp] theorem State.post_timeBase (s : State) (d : Client) (body : NoticeBody) :
    (s.post d body).timeBase = s.timeBase := rfl
@[simp] theorem State.post_deadlines (s : State) (d : Client) (body : NoticeBody) :
    (s.post d body).deadlines = s.deadlines := rfl
@[simp] theorem State.post_pending (s : State) (d : Client) (body : NoticeBody) :
    (s.post d body).pending = s.pending := rfl
@[simp] theorem State.post_now (s : State) (d : Client) (body : NoticeBody) :
    (s.post d body).now = s.now := rfl
@[simp] theorem State.post_gate (s : State) (d : Client) (body : NoticeBody) :
    (s.post d body).gate = s.gate := rfl
@[simp] theorem State.post_line (s : State) (d : Client) (body : NoticeBody) (r : ResourceId) (c : Client) :
    (s.post d body).line r c = s.line r c := rfl
@[simp] theorem State.post_resource (s : State) (d : Client) (body : NoticeBody) (r : ResourceId) :
    (s.post d body).resource r = s.resource r := rfl
@[simp] theorem State.post_leaseRecord (s : State) (d : Client) (body : NoticeBody) (k : LeaseSlot) :
    (s.post d body).leaseRecord k = s.leaseRecord k := rfl
@[simp] theorem State.post_lease (s : State) (d : Client) (body : NoticeBody) (k : LeaseSlot) :
    (s.post d body).lease k = s.lease k := rfl
@[simp] theorem State.post_waiterRecord (s : State) (d : Client) (body : NoticeBody) (k : WaiterSlot) :
    (s.post d body).waiterRecord k = s.waiterRecord k := rfl
@[simp] theorem State.post_waiter (s : State) (d : Client) (body : NoticeBody) (k : WaiterSlot) :
    (s.post d body).waiter k = s.waiter k := rfl
@[simp] theorem State.post_session (s : State) (d : Client) (body : NoticeBody) (c : Client) :
    (s.post d body).session c = s.session c := rfl
@[simp] theorem State.post_port (s : State) (d : Client) (body : NoticeBody) (p : Client) :
    (s.post d body).port p = s.port p := rfl

/-! ### After a return: every other part of the state reads as before -/

@[simp] theorem State.giveBack_resetHeld (s : State) (d : Client) (n : Nat) :
    (s.giveBack d n).resetHeld = s.resetHeld := rfl
@[simp] theorem State.giveBack_timeBase (s : State) (d : Client) (n : Nat) :
    (s.giveBack d n).timeBase = s.timeBase := rfl
@[simp] theorem State.giveBack_deadlines (s : State) (d : Client) (n : Nat) :
    (s.giveBack d n).deadlines = s.deadlines := rfl
@[simp] theorem State.giveBack_pending (s : State) (d : Client) (n : Nat) :
    (s.giveBack d n).pending = s.pending := rfl
@[simp] theorem State.giveBack_now (s : State) (d : Client) (n : Nat) :
    (s.giveBack d n).now = s.now := rfl
@[simp] theorem State.giveBack_gate (s : State) (d : Client) (n : Nat) :
    (s.giveBack d n).gate = s.gate := rfl
@[simp] theorem State.giveBack_line (s : State) (d : Client) (n : Nat) (r : ResourceId) (c : Client) :
    (s.giveBack d n).line r c = s.line r c := rfl
@[simp] theorem State.giveBack_resource (s : State) (d : Client) (n : Nat) (r : ResourceId) :
    (s.giveBack d n).resource r = s.resource r := rfl
@[simp] theorem State.giveBack_leaseRecord (s : State) (d : Client) (n : Nat) (k : LeaseSlot) :
    (s.giveBack d n).leaseRecord k = s.leaseRecord k := rfl
@[simp] theorem State.giveBack_lease (s : State) (d : Client) (n : Nat) (k : LeaseSlot) :
    (s.giveBack d n).lease k = s.lease k := rfl
@[simp] theorem State.giveBack_waiterRecord (s : State) (d : Client) (n : Nat) (k : WaiterSlot) :
    (s.giveBack d n).waiterRecord k = s.waiterRecord k := rfl
@[simp] theorem State.giveBack_waiter (s : State) (d : Client) (n : Nat) (k : WaiterSlot) :
    (s.giveBack d n).waiter k = s.waiter k := rfl
@[simp] theorem State.giveBack_session (s : State) (d : Client) (n : Nat) (c : Client) :
    (s.giveBack d n).session c = s.session c := rfl
@[simp] theorem State.giveBack_port (s : State) (d : Client) (n : Nat) (p : Client) :
    (s.giveBack d n).port p = s.port p := rfl

/-! ### After an answer is handed to its port: every other part of the state reads as before -/

@[simp] theorem State.answer_resetHeld (s : State) (d : Client) (q : Request) (a : Reply) :
    (s.answer d q a).resetHeld = s.resetHeld := rfl
@[simp] theorem State.answer_timeBase (s : State) (d : Client) (q : Request) (a : Reply) :
    (s.answer d q a).timeBase = s.timeBase := rfl
@[simp] theorem State.answer_deadlines (s : State) (d : Client) (q : Request) (a : Reply) :
    (s.answer d q a).deadlines = s.deadlines := rfl
@[simp] theorem State.answer_pending (s : State) (d : Client) (q : Request) (a : Reply) :
    (s.answer d q a).pending = s.pending := rfl
@[simp] theorem State.answer_now (s : State) (d : Client) (q : Request) (a : Reply) :
    (s.answer d q a).now = s.now := rfl
@[simp] theorem State.answer_gate (s : State) (d : Client) (q : Request) (a : Reply) :
    (s.answer d q a).gate = s.gate := rfl
@[simp] theorem State.answer_line (s : State) (d : Client) (q : Request) (a : Reply) (r : ResourceId) (c : Client) :
    (s.answer d q a).line r c = s.line r c := rfl
@[simp] theorem State.answer_resource (s : State) (d : Client) (q : Request) (a : Reply) (r : ResourceId) :
    (s.answer d q a).resource r = s.resource r := rfl
@[simp] theorem State.answer_leaseRecord (s : State) (d : Client) (q : Request) (a : Reply) (k : LeaseSlot) :
    (s.answer d q a).leaseRecord k = s.leaseRecord k := rfl
@[simp] theorem State.answer_lease (s : State) (d : Client) (q : Request) (a : Reply) (k : LeaseSlot) :
    (s.answer d q a).lease k = s.lease k := rfl
@[simp] theorem State.answer_waiterRecord (s : State) (d : Client) (q : Request) (a : Reply) (k : WaiterSlot) :
    (s.answer d q a).waiterRecord k = s.waiterRecord k := rfl
@[simp] theorem State.answer_waiter (s : State) (d : Client) (q : Request) (a : Reply) (k : WaiterSlot) :
    (s.answer d q a).waiter k = s.waiter k := rfl
@[simp] theorem State.answer_session (s : State) (d : Client) (q : Request) (a : Reply) (c : Client) :
    (s.answer d q a).session c = s.session c := rfl
@[simp] theorem State.answer_box (s : State) (d : Client) (q : Request) (a : Reply) (c : Client) :
    (s.answer d q a).box c = s.box c := rfl
/-! ### The deadline list -/

theorem mem_insertEntry (e x : Entry) (l : List Entry) : x ∈ insertEntry e l ↔ x = e ∨ x ∈ l := by
  induction l with
  | nil => simp [insertEntry]
  | cons y l ih =>
    simp only [insertEntry]
    split <;> simp [ih]
    tauto

/-- An insertion puts the entry somewhere and keeps the order of the others (R100). -/
theorem insertEntry_split (e : Entry) (l : List Entry) :
    ∃ ahead behind, l = ahead ++ behind ∧ insertEntry e l = ahead ++ e :: behind ∧
      (∀ x ∈ ahead, dueAhead e.due x.due = false) ∧ ∀ x ∈ behind.head?, dueAhead e.due x.due = true := by
  induction l with
  | nil => exact ⟨[], [], by simp [insertEntry]⟩
  | cons y l ih =>
    obtain ⟨a, b, rfl, h2, h3, h4⟩ := ih
    by_cases h : dueAhead e.due y.due = true
    · exact ⟨[], y :: (a ++ b), by simp [insertEntry, h]⟩
    · refine ⟨y :: a, b, rfl, by simp [insertEntry, h, h2], ?_, h4⟩
      simpa using ⟨by simpa using h, h3⟩

theorem filter_insertEntry_of_false (f : Entry → Bool) (e : Entry) (l : List Entry) (h : f e = false) :
    (insertEntry e l).filter f = l.filter f := by
  obtain ⟨a, b, rfl, h2, -⟩ := insertEntry_split e l
  simp [h2, h]

theorem filter_dropOwner (f : Entry → Bool) (o : Owner) (l : List Entry)
    (h : ∀ e : Entry, e.owner = o → f e = false) : (dropOwner o l).filter f = l.filter f := by
  rw [dropOwner, List.filter_filter]
  apply List.filter_congr
  intro e _
  by_cases he : e.owner = o <;> simp [he, h]

@[simp] theorem State.arm_owed (s : State) (e : Entry) : (s.arm e).deadlines.owed = s.deadlines.owed := rfl
@[simp] theorem State.disarm_owed (s : State) (o : Owner) : (s.disarm o).deadlines.owed = s.deadlines.owed := rfl
@[simp] theorem State.armLease_owed (s : State) (i : LeaseSlot) (l : Lease) :
    (s.armLease i l).deadlines.owed = s.deadlines.owed := rfl

/-- An arm command gives its owner exactly the new entry (R101). -/
@[simp] theorem State.entriesOf_arm_self (s : State) (e : Entry) : (s.arm e).entriesOf e.owner = [e] := by
  obtain ⟨a, b, h1, h2, -⟩ := insertEntry_split e (dropOwner e.owner s.deadlines.entries)
  have h3 : ∀ x ∈ a ++ b, ¬ x.owner = e.owner := by
    rw [← h1]; simp [dropOwner]
  have ha : a.filter (fun x => decide (x.owner = e.owner)) = [] := by
    simp only [List.filter_eq_nil_iff, decide_eq_true_eq]; exact fun x hx => h3 x (by simp [hx])
  have hb : b.filter (fun x => decide (x.owner = e.owner)) = [] := by
    simp only [List.filter_eq_nil_iff, decide_eq_true_eq]; exact fun x hx => h3 x (by simp [hx])
  simp [State.entriesOf, State.arm, h2, ha, hb]

/-- A cancel command leaves its owner no entry (R102). -/
@[simp] theorem State.entriesOf_disarm_self (s : State) (o : Owner) : (s.disarm o).entriesOf o = [] := by
  simp [State.entriesOf, State.disarm, dropOwner]

/-- An arm command keeps the entries of other owners, in their order. -/
theorem State.filter_arm (s : State) (e : Entry) (f : Entry → Bool) (h : ∀ x : Entry, x.owner = e.owner → f x = false) :
    (s.arm e).deadlines.entries.filter f = s.deadlines.entries.filter f := by
  simp only [State.arm, State.setDeadlines_deadlines]
  rw [filter_insertEntry_of_false f e _ (h e rfl), filter_dropOwner f _ _ h]

/-- A cancel command keeps the entries of other owners, in their order. -/
theorem State.filter_disarm (s : State) (o : Owner) (f : Entry → Bool) (h : ∀ x : Entry, x.owner = o → f x = false) :
    (s.disarm o).deadlines.entries.filter f = s.deadlines.entries.filter f := by
  simp only [State.disarm, State.setDeadlines_deadlines]
  exact filter_dropOwner f _ _ h

theorem State.filter_armLease (s : State) (i : LeaseSlot) (l : Lease) (f : Entry → Bool)
    (h : ∀ x : Entry, x.owner = .lease i → f x = false) :
    (s.armLease i l).deadlines.entries.filter f = s.deadlines.entries.filter f := s.filter_arm _ f h

theorem State.entriesOf_arm_of_ne (s : State) (e : Entry) (o : Owner) (h : o ≠ e.owner) :
    (s.arm e).entriesOf o = s.entriesOf o :=
  s.filter_arm e _ fun x hx => by simp [hx, h.symm]

theorem State.entriesOf_disarm_of_ne (s : State) (o o' : Owner) (h : o' ≠ o) :
    (s.disarm o).entriesOf o' = s.entriesOf o' :=
  s.filter_disarm o _ fun x hx => by simp [hx, h.symm]

theorem State.entriesOf_armLease_self (s : State) (i : LeaseSlot) (l : Lease) :
    (s.armLease i l).entriesOf (.lease i) = [s.leaseEntry i l] := s.entriesOf_arm_self _

theorem State.entriesOf_armLease_of_ne (s : State) (i : LeaseSlot) (l : Lease) (o : Owner) (h : o ≠ .lease i) :
    (s.armLease i l).entriesOf o = s.entriesOf o := s.entriesOf_arm_of_ne _ o h

/-! ### The delivery test (R103): every other part of the state reads as before -/

@[simp] theorem State.deliver_resetHeld (s : State) : s.deliver.resetHeld = s.resetHeld := rfl
@[simp] theorem State.deliver_timeBase (s : State) : s.deliver.timeBase = s.timeBase := rfl
@[simp] theorem State.deliver_gate (s : State) : s.deliver.gate = s.gate := rfl
@[simp] theorem State.deliver_ports (s : State) : s.deliver.ports = s.ports := rfl
@[simp] theorem State.deliver_pending (s : State) : s.deliver.pending = s.pending := rfl
@[simp] theorem State.deliver_now (s : State) : s.deliver.now = s.now := rfl
@[simp] theorem State.deliver_line (s : State) (r : ResourceId) (c : Client) : s.deliver.line r c = s.line r c := rfl
@[simp] theorem State.deliver_resource (s : State) (r : ResourceId) : s.deliver.resource r = s.resource r := rfl
@[simp] theorem State.deliver_leaseRecord (s : State) (i : LeaseSlot) : s.deliver.leaseRecord i = s.leaseRecord i := rfl
@[simp] theorem State.deliver_lease (s : State) (i : LeaseSlot) : s.deliver.lease i = s.lease i := rfl
@[simp] theorem State.deliver_waiterRecord (s : State) (j : WaiterSlot) : s.deliver.waiterRecord j = s.waiterRecord j := rfl
@[simp] theorem State.deliver_waiter (s : State) (j : WaiterSlot) : s.deliver.waiter j = s.waiter j := rfl
@[simp] theorem State.deliver_session (s : State) (c : Client) : s.deliver.session c = s.session c := rfl
@[simp] theorem State.deliver_box (s : State) (c : Client) : s.deliver.box c = s.box c := rfl
@[simp] theorem State.deliver_port (s : State) (p : Client) : s.deliver.port p = s.port p := rfl

/-- The test delivers a reached head when nothing is owed. -/
theorem State.deliver_of_reached {s : State} {e : Entry} {rest : List Entry} (h : s.deadlines.entries = e :: rest)
    (ho : s.deadlines.owed = none) (hr : reached s.now e.due = true) : s.deliver = s.setDeadlines ⟨rest, some e⟩ := by
  simp [State.deliver, DeadlineList.deliver, h, ho, hr]

/-- The test delivers nothing while an expiry is owed, and nothing while the head is not reached. -/
theorem State.deliver_of_not_due {s : State}
    (h : s.deadlines.owed = none → ∀ e ∈ s.deadlines.entries.head?, reached s.now e.due = false) : s.deliver = s := by
  unfold State.deliver DeadlineList.deliver
  split
  · rename_i e rest ho he
    have := h ho e (by simp [he])
    simp [this, State.setDeadlines]
  · rfl

/-- All that the test can do. -/
theorem State.deliver_cases (s : State) :
    s.deliver = s ∨ ∃ e rest, s.deadlines = ⟨e :: rest, none⟩ ∧ reached s.now e.due = true ∧
      s.deliver = s.setDeadlines ⟨rest, some e⟩ := by
  unfold State.deliver DeadlineList.deliver
  split
  · rename_i e rest ho he
    split
    · rename_i hr
      exact .inr ⟨e, rest, by rw [← he, ← ho], hr, rfl⟩
    · exact .inl rfl
  · exact .inl rfl

@[simp] theorem State.testHead_resetHeld (s t : State) : (s.testHead t).resetHeld = t.resetHeld := by
  unfold State.testHead; split <;> rfl
@[simp] theorem State.testHead_timeBase (s t : State) : (s.testHead t).timeBase = t.timeBase := by
  unfold State.testHead; split <;> rfl
@[simp] theorem State.testHead_gate (s t : State) : (s.testHead t).gate = t.gate := by
  unfold State.testHead; split <;> rfl
@[simp] theorem State.testHead_ports (s t : State) : (s.testHead t).ports = t.ports := by
  unfold State.testHead; split <;> rfl
@[simp] theorem State.testHead_pending (s t : State) : (s.testHead t).pending = t.pending := by
  unfold State.testHead; split <;> rfl
@[simp] theorem State.testHead_now (s t : State) : (s.testHead t).now = t.now := by
  unfold State.testHead; split <;> rfl
@[simp] theorem State.testHead_line (s t : State) (r : ResourceId) (c : Client) : (s.testHead t).line r c = t.line r c := by
  unfold State.testHead; split <;> rfl
@[simp] theorem State.testHead_resource (s t : State) (r : ResourceId) : (s.testHead t).resource r = t.resource r := by
  unfold State.testHead; split <;> rfl
@[simp] theorem State.testHead_leaseRecord (s t : State) (i : LeaseSlot) : (s.testHead t).leaseRecord i = t.leaseRecord i := by
  unfold State.testHead; split <;> rfl
@[simp] theorem State.testHead_lease (s t : State) (i : LeaseSlot) : (s.testHead t).lease i = t.lease i := by
  unfold State.testHead; split <;> rfl
@[simp] theorem State.testHead_waiterRecord (s t : State) (j : WaiterSlot) : (s.testHead t).waiterRecord j = t.waiterRecord j := by
  unfold State.testHead; split <;> rfl
@[simp] theorem State.testHead_waiter (s t : State) (j : WaiterSlot) : (s.testHead t).waiter j = t.waiter j := by
  unfold State.testHead; split <;> rfl
@[simp] theorem State.testHead_session (s t : State) (c : Client) : (s.testHead t).session c = t.session c := by
  unfold State.testHead; split <;> rfl
@[simp] theorem State.testHead_box (s t : State) (c : Client) : (s.testHead t).box c = t.box c := by
  unfold State.testHead; split <;> rfl
@[simp] theorem State.testHead_port (s t : State) (p : Client) : (s.testHead t).port p = t.port p := by
  unfold State.testHead; split <;> rfl

/-- An event that leaves the list as it was makes no test. -/
theorem State.testHead_of_deadlines {s t : State} (h : t.deadlines = s.deadlines) : s.testHead t = t := by
  simp [State.testHead, h]

@[simp] theorem State.testHead_nothing_done (s : State) :
    s.testHead s.beginEvent.endEvent = s.beginEvent.endEvent := State.testHead_of_deadlines rfl

/-- All that the test of an event's arms and cancels can do. -/
theorem State.testHead_cases (s t : State) : s.testHead t = t ∨ s.testHead t = t.deliver := by
  unfold State.testHead; split
  · exact .inl rfl
  · exact .inr rfl

/-- The answer of an event and its delivery test touch different parts. -/
theorem State.testHead_answer (s t : State) (p : Client) (q : Request) (a : Reply) :
    (s.testHead t).answer p q a = s.testHead (t.answer p q a) := by
  unfold State.testHead
  have : (t.answer p q a).deadlines = t.deadlines := rfl
  rw [this]
  split
  · rfl
  · rfl

/-- The end of an event and its delivery test touch different parts. -/
theorem State.deliver_endEvent (s : State) : s.endEvent.deliver = s.deliver.endEvent := rfl

/-! ### The gate unit -/

@[simp] theorem State.cutLine_gate (s : State) (x : Line) : (s.cutLine x).gate
    = ⟨setLine s.gate.lines x false, s.gate.held.filter fun y => !decide (y = x), s.gate.driven ++ [.cut x]⟩ := rfl

@[simp] theorem State.holdSet_gate (s : State) (x : Line) :
    (s.holdSet x).gate = ⟨s.gate.lines, s.gate.held ++ [x], s.gate.driven⟩ := rfl

@[simp] theorem State.beginEvent_gate (s : State) : s.beginEvent.gate = ⟨s.gate.lines, [], []⟩ := rfl

@[simp] theorem State.endEvent_gate (s : State) : s.endEvent.gate
    = ⟨s.gate.held.foldl (fun lines x => setLine lines x true) s.gate.lines, [], s.gate.driven ++ s.gate.held.map .set⟩ :=
  rfl

theorem setLine_apply (lines : Vector (Vector Bool 4) 12) (x : Line) (v : Bool) (r : ResourceId) (c : Client) :
    (setLine lines x v)[r][c] = if x = ⟨r, c⟩ then v else lines[r][c] := by
  obtain ⟨xr, xc⟩ := x
  by_cases hr : xr = r
  · subst hr
    by_cases hc : xc = c
    · subst hc; simp [setLine]
    · have : ¬ xc.val = c.val := fun e => hc (Fin.ext e)
      simp [setLine, hc, this]
  · have : ¬ xr.val = r.val := fun e => hr (Fin.ext e)
    simp [setLine, hr, this]

@[simp] theorem State.cutLine_line (s : State) (x : Line) (r : ResourceId) (c : Client) :
    (s.cutLine x).line r c = if x = ⟨r, c⟩ then false else s.line r c := setLine_apply _ _ _ _ _

theorem foldl_setLine_apply (l : List Line) (lines : Vector (Vector Bool 4) 12) (r : ResourceId) (c : Client) :
    (l.foldl (fun lines x => setLine lines x true) lines)[r][c] = (decide (⟨r, c⟩ ∈ l) || lines[r][c]) := by
  induction l generalizing lines with
  | nil => simp
  | cons x l ih =>
    rw [List.foldl_cons, ih, setLine_apply]
    by_cases h : x = ⟨r, c⟩ <;> simp [h, eq_comm]

/-- At the end of an event every held-back set is driven (R16). -/
theorem State.endEvent_line (s : State) (r : ResourceId) (c : Client) :
    s.endEvent.line r c = (decide (⟨r, c⟩ ∈ s.gate.held) || s.line r c) := foldl_setLine_apply _ _ _ _

/-! ### The notice unit and the ports -/

@[simp] theorem State.post_box (s : State) (d c : Client) (body : NoticeBody) :
    (s.post d body).box c = if c = d then (s.box d).post s.now body else s.box c := by
  simp [State.post, State.setBox_box]

@[simp] theorem State.giveBack_box (s : State) (d c : Client) (n : Nat) :
    (s.giveBack d n).box c = if c = d then (s.box d).giveBack n else s.box c := by
  simp [State.giveBack, State.setBox_box]

theorem State.answer_port (s : State) (p d : Client) (q : Request) (a : Reply) :
    (s.answer p q a).port d = if d = p then Port.offerTaken { s.port p with
      inFlight := (s.port p).inFlight ++ [⟨q.stamp, q.tag, q.kind, a.status, s.now, a.results⟩] } else s.port d := by
  simp [State.answer, State.setPort_port]

end Sys2Proof.Machine
end

