-- ==== Sys2Proof/Laws/Engine.lean ====
section
/-!
SUPPORT. The engine's work list: how its items follow one another, how an invariant of one item becomes an invariant of
an event, and what no item of work changes.
-/

namespace Sys2Proof.Machine

/-! ### Doing a list of items -/

@[simp] theorem runWork_nil (n : Nat) (s : State) : runWork n [] s = s := by cases n <;> rfl

@[simp] theorem runWork_cons (n : Nat) (w : Work) (rest : List Work) (s : State) :
    runWork (n + 1) (w :: rest) s = runWork n ((doWork w s).2 ++ rest) (doWork w s).1 := rfl

/-- What every item keeps, whatever is left to do, the whole list keeps. -/
theorem runWork_keeps (P : List Work → State → Prop)
    (step : ∀ w rest s, P (w :: rest) s → P ((doWork w s).2 ++ rest) (doWork w s).1) :
    ∀ n work s, P work s → ∃ left, P left (runWork n work s) := by
  intro n
  induction n with
  | zero => exact fun work s h => ⟨work, h⟩
  | succ n ih =>
    intro work s h
    cases work with
    | nil => exact ⟨[], h⟩
    | cons w rest => exact ih _ _ (step w rest s h)

/-- What every item keeps, an event keeps. -/
theorem State.run_keeps (P : State → Prop) (step : ∀ w s, P s → P (doWork w s).1) (work : List Work) (s : State)
    (h : P s) : P (s.run work) :=
  (runWork_keeps (fun _ => P) (fun w _ s => step w s) engineFuel work s h).choose_spec

/-- A reading of the state that no item changes is not changed by an event. -/
theorem State.run_eq {α : Type} (f : State → α) (step : ∀ w s, f (doWork w s).1 = f s) (work : List Work) (s : State) :
    f (s.run work) = f s :=
  s.run_keeps (fun t => f t = f s) (fun w t h => (step w t).trans h) work rfl

/-! ### A reading that the engine's operations keep

Every operation of the engine is made of writes of resources, lease slots, waiter slots, sessions and notice boxes, of
arm and cancel commands, and of cut and set commands. -/

/-- A reading of the state that none of the writes an item of work is made of changes. -/
structure KeptByWrites {α : Type} (f : State → α) : Prop where
  resource : ∀ s r x, x.config = (s.resource r).config → f (s.setResource r x) = f s
  lease : ∀ s i x, f (s.setLeaseRecord i x) = f s
  waiter : ∀ s j x, f (s.setWaiterRecord j x) = f s
  session : ∀ s c (x : Session), x.isOpen = (s.session c).isOpen → x.epoch = (s.session c).epoch →
    x.lastEnd = (s.session c).lastEnd → x.admin = (s.session c).admin → x.threshold = (s.session c).threshold →
    f (s.setSession c x) = f s
  box : ∀ s c (x : NoticeBox), x.threshold = (s.box c).threshold → f (s.setBox c x) = f s
  arm : ∀ s e, f (s.arm e) = f s
  disarm : ∀ s o, f (s.disarm o) = f s
  cut : ∀ s x, f (s.cutLine x) = f s
  holdSet : ∀ s x, f (s.holdSet x) = f s

variable {α : Type} {f : State → α}

theorem KeptByWrites.post (h : KeptByWrites f) (s : State) (c : Client) (body : NoticeBody) : f (s.post c body) = f s :=
  h.box _ _ _ (by rfl)

theorem KeptByWrites.giveBack (h : KeptByWrites f) (s : State) (c : Client) (n : Nat) : f (s.giveBack c n) = f s :=
  h.box _ _ _ (by rfl)

theorem KeptByWrites.setLease (h : KeptByWrites f) (s : State) (i : LeaseSlot) (l : Lease) : f (s.setLease i l) = f s :=
  h.lease _ _ _

theorem KeptByWrites.beginLease (h : KeptByWrites f) (s : State) (i : LeaseSlot) (r : ResourceId) (c : Client)
    (m : Mode) (u : Urgency) (iv : Interval) : f (s.beginLease i r c m u iv) = f s := by
  refine (h.session _ _ _ (by rfl) (by rfl) (by rfl) (by rfl) (by rfl)).trans ((h.holdSet _ _).trans ((h.resource _ _ _ (by rfl)).trans ?_))
  exact (h.arm _ _).trans (h.setLease _ _ _)

theorem KeptByWrites.freeWaiter (h : KeptByWrites f) (s : State) (j : WaiterSlot) (o : Outcome) :
    f (s.freeWaiter j o) = f s := by
  unfold State.freeWaiter
  split
  · rfl
  · refine (h.session _ _ _ (by rfl) (by rfl) (by rfl) (by rfl) (by rfl)).trans ((h.waiter _ _ _).trans ((h.disarm _ _).trans ?_))
    exact h.resource _ _ _ (by rfl)

theorem KeptByWrites.freeLease (h : KeptByWrites f) (s : State) (i : LeaseSlot) (cause : EndCause) :
    f (s.freeLease i cause) = f s := by
  unfold State.freeLease
  split
  · rfl
  · split
    · rfl
    · refine (h.session _ _ _ (by rfl) (by rfl) (by rfl) (by rfl) (by rfl)).trans ((h.lease _ _ _).trans ?_)
      split
      · exact (h.box _ _ _ (by rfl)).trans (h.disarm _ _)
      · exact h.disarm _ _

theorem KeptByWrites.enqueue (h : KeptByWrites f) (s : State) (j : WaiterSlot) (w : Waiter) :
    f (s.enqueue j w) = f s := by
  refine (h.session _ _ _ (by rfl) (by rfl) (by rfl) (by rfl) (by rfl)).trans ((h.resource _ _ _ (by rfl)).trans ((h.arm _ _).trans ?_))
  exact (h.box _ _ _ (by rfl)).trans (h.waiter _ _ _)

theorem KeptByWrites.grantWaiter (h : KeptByWrites f) (s : State) (j : WaiterSlot) (w : Waiter) (i : LeaseSlot) :
    f (s.grantWaiter j w i) = f s := by
  exact (h.freeWaiter _ _ _).trans ((h.beginLease _ _ _ _ _ _ _).trans (h.post _ _ _))

theorem KeptByWrites.walkQueue (h : KeptByWrites f) (r : ResourceId) (queue : List WaiterSlot) :
    ∀ (s : State) (n : Nat), f (walkQueue r queue s n).state = f s := by
  induction queue with
  | nil => exact fun _ _ => rfl
  | cons j rest ih =>
    intro s n
    unfold Machine.walkQueue
    split
    · rfl
    · split
      · split
        · rfl
        · rw [ih, h.grantWaiter]
      · rfl

theorem KeptByWrites.passWalk (h : KeptByWrites f) (s : State) (r : ResourceId) : f (s.passWalk r).state = f s := by
  unfold State.passWalk
  split
  · exact h.walkQueue r _ s 0
  · rfl

theorem KeptByWrites.settleOrIdle (h : KeptByWrites f) (s : State) (r : ResourceId) : f (s.settleOrIdle r).1 = f s := by
  simp only [State.settleOrIdle]
  split
  · exact h.resource _ _ _ (by rfl)
  · exact (h.arm _ _).trans (h.resource _ _ _ (by rfl))

theorem KeptByWrites.afterLeaseLeft (h : KeptByWrites f) (s : State) (r : ResourceId) (cause : EndCause) :
    f (s.afterLeaseLeft r cause).1 = f s := by
  simp only [State.afterLeaseLeft]
  split
  · split
    · exact h.resource _ _ _ (by rfl)
    · split
      · exact h.resource _ _ _ (by rfl)
      · exact h.settleOrIdle _ _
  · split
    · rfl
    · exact h.resource _ _ _ (by rfl)
  · rfl

/-- No item of work changes such a reading. -/
theorem KeptByWrites.doWork (h : KeptByWrites f) (w : Work) (s : State) : f (doWork w s).1 = f s := by
  cases w with
  | pass r =>
    exact (h.resource _ _ _ (by rfl)).trans (h.passWalk s r)
  | check r => rfl
  | recallLease i reason grace =>
    simp only [Machine.doWork, State.recallLease]
    split
    · rfl
    · split
      · split
        · exact (h.setLease _ _ _).trans (h.post _ _ _)
        · exact (h.arm _ _).trans ((h.setLease _ _ _).trans (h.post _ _ _))
      · rfl
  | endLease i cause =>
    simp only [Machine.doWork, State.endLeaseStep]
    split
    · rfl
    · split
      · refine (h.afterLeaseLeft _ _ _).trans ((h.resource _ _ _ (by rfl)).trans (h.cut _ _))
      · rfl
  | freeSlot i cause => exact h.freeLease s i cause
  | starvedFrom index => simp only [Machine.doWork]; split <;> rfl
  | endHolding r c cause => simp only [Machine.doWork]; split <;> rfl
  | removeWaiting r c o =>
    simp only [Machine.doWork, State.removeWaitingStep, State.endWaiter]
    split
    · rfl
    · split
      · rfl
      · exact (h.freeWaiter _ _ _).trans (h.giveBack _ _ _)

theorem KeptByWrites.run (h : KeptByWrites f) (work : List Work) (s : State) : f (s.run work) = f s :=
  s.run_eq f h.doWork work

/-! ### What no item of work changes -/

/-! The parts of the state outside the engine's reach: RESET_N's level, the time base, the ports, the waiting commands and
the delivery place; and the configurations, and of each session its state, epoch, last end cause, right and threshold,
with the notice unit's threshold copy. -/

theorem kept_resetHeld : KeptByWrites State.resetHeld := by constructor <;> intros <;> rfl
theorem kept_timeBase : KeptByWrites State.timeBase := by constructor <;> intros <;> rfl
theorem kept_ports : KeptByWrites State.ports := by constructor <;> intros <;> rfl
theorem kept_pending : KeptByWrites State.pending := by constructor <;> intros <;> rfl
theorem kept_owed : KeptByWrites fun s => s.deadlines.owed := by constructor <;> intros <;> rfl

theorem kept_config (r : ResourceId) : KeptByWrites fun s => (s.resource r).config := by
  constructor <;> intros <;> try rfl
  rename_i s k x h
  simp only [State.setResource_resource]
  split <;> simp_all

theorem kept_isOpen (c : Client) : KeptByWrites fun s => (s.session c).isOpen := by
  constructor <;> intros <;> try rfl
  simp only [State.setSession_session]
  split <;> simp_all

theorem kept_epoch (c : Client) : KeptByWrites fun s => (s.session c).epoch := by
  constructor <;> intros <;> try rfl
  simp only [State.setSession_session]
  split <;> simp_all

theorem kept_lastEnd (c : Client) : KeptByWrites fun s => (s.session c).lastEnd := by
  constructor <;> intros <;> try rfl
  simp only [State.setSession_session]
  split <;> simp_all

theorem kept_admin (c : Client) : KeptByWrites fun s => (s.session c).admin := by
  constructor <;> intros <;> try rfl
  simp only [State.setSession_session]
  split <;> simp_all

theorem kept_threshold (c : Client) : KeptByWrites fun s => (s.session c).threshold := by
  constructor <;> intros <;> try rfl
  simp only [State.setSession_session]
  split <;> simp_all

theorem kept_boxThreshold (c : Client) : KeptByWrites fun s => (s.box c).threshold := by
  constructor <;> intros <;> try rfl
  simp only [State.setBox_box]
  split <;> simp_all

@[simp] theorem State.run_resetHeld (s : State) (work : List Work) : (s.run work).resetHeld = s.resetHeld :=
  kept_resetHeld.run work s
@[simp] theorem State.run_timeBase (s : State) (work : List Work) : (s.run work).timeBase = s.timeBase :=
  kept_timeBase.run work s
@[simp] theorem State.run_now (s : State) (work : List Work) : (s.run work).now = s.now := by
  simp [State.now]
@[simp] theorem State.run_ports (s : State) (work : List Work) : (s.run work).ports = s.ports := kept_ports.run work s
@[simp] theorem State.run_port (s : State) (work : List Work) (p : Client) : (s.run work).port p = s.port p := by
  simp [State.port]
@[simp] theorem State.run_pending (s : State) (work : List Work) : (s.run work).pending = s.pending :=
  kept_pending.run work s
@[simp] theorem State.run_owed (s : State) (work : List Work) : (s.run work).deadlines.owed = s.deadlines.owed :=
  kept_owed.run work s
@[simp] theorem State.run_config (s : State) (work : List Work) (r : ResourceId) :
    ((s.run work).resource r).config = (s.resource r).config := (kept_config r).run work s
@[simp] theorem State.run_isOpen (s : State) (work : List Work) (c : Client) :
    ((s.run work).session c).isOpen = (s.session c).isOpen := (kept_isOpen c).run work s
@[simp] theorem State.run_epoch (s : State) (work : List Work) (c : Client) :
    ((s.run work).session c).epoch = (s.session c).epoch := (kept_epoch c).run work s
@[simp] theorem State.run_lastEnd (s : State) (work : List Work) (c : Client) :
    ((s.run work).session c).lastEnd = (s.session c).lastEnd := (kept_lastEnd c).run work s
@[simp] theorem State.run_admin (s : State) (work : List Work) (c : Client) :
    ((s.run work).session c).admin = (s.session c).admin := (kept_admin c).run work s
@[simp] theorem State.run_threshold (s : State) (work : List Work) (c : Client) :
    ((s.run work).session c).threshold = (s.session c).threshold := (kept_threshold c).run work s
@[simp] theorem State.run_boxThreshold (s : State) (work : List Work) (c : Client) :
    ((s.run work).box c).threshold = (s.box c).threshold := (kept_boxThreshold c).run work s

end Sys2Proof.Machine
end

