-- ==== Sys2Proof/Laws/Operands.lean ====
section
/-!
SUPPORT. What the operands of requests come to: a parameter byte in or out of its field's range, the clients of a set
byte, the tables' free slots, the holder list, and who a resolved handle's lease or waiter belongs to.
-/

namespace Sys2Proof.Machine

/-! ### Parameter bytes (R166) -/

theorem natByte_toNat {n : Nat} (h : n < 256) : (natByte n).toNat = n := by
  simp only [natByte, BitVec.toNat_ofNat]; omega

theorem resourceOfByte_natByte (r : ResourceId) : resourceOfByte (natByte r.val) = some r := by
  have := natByte_toNat (n := r.val) (by omega)
  simp [resourceOfByte, this]

theorem clientOfByte_natByte (c : Client) : clientOfByte (natByte c.val) = some c := by
  have := natByte_toNat (n := c.val) (by omega)
  simp [clientOfByte, this]

theorem thresholdOfByte_natByte (v : Fin 8) : thresholdOfByte (natByte v.val) = some v := by
  have := natByte_toNat (n := v.val) (by omega)
  simp [thresholdOfByte, this]

theorem yesNoOfByte_yesNo (v : Bool) : yesNoOfByte (yesNo v) = some v := by cases v <;> decide

theorem resourceOfByte_none {b : Byte} (h : 12 ≤ b.toNat) : resourceOfByte b = none := by
  simp [resourceOfByte]; omega

theorem clientOfByte_none {b : Byte} (h : 4 ≤ b.toNat) : clientOfByte b = none := by
  simp [clientOfByte]; omega

theorem urgencyOfByte_none {b : Byte} (h : 4 ≤ b.toNat) : urgencyOfByte b = none := by
  simp [urgencyOfByte]; omega

theorem thresholdOfByte_none {b : Byte} (h : 8 ≤ b.toNat) : thresholdOfByte b = none := by
  simp [thresholdOfByte]; omega

theorem yesNoOfByte_none {b : Byte} (h : 2 ≤ b.toNat) : yesNoOfByte b = none := by
  have h0 : ¬ b = 0x00 := by rintro rfl; simp at h
  have h1 : ¬ b = 0x01 := by rintro rfl; simp at h
  rw [yesNoOfByte, if_neg h0, if_neg h1]

theorem modeOfByte_none {b : Byte} (h : 2 ≤ b.toNat) : modeOfByte b = none := by
  have h0 : ¬ b = 0x00 := by rintro rfl; simp at h
  have h1 : ¬ b = 0x01 := by rintro rfl; simp at h
  rw [modeOfByte, if_neg h0, if_neg h1]

/-- The bytes of a two-byte field spell it again (section 9.1). -/
theorem halfOf_halfBytes (x : Half) : halfOf (x.extractLsb' 8 8) (x.extractLsb' 0 8) = x := by
  unfold halfOf
  apply BitVec.eq_of_getLsbD_eq
  intro i hi
  simp only [BitVec.getLsbD_append, BitVec.getLsbD_extractLsb']
  by_cases h8 : i < 8
  · simp [h8]
  · simp [h8, show i - 8 < 8 by omega, show 8 + (i - 8) = i by omega]

/-! ### Sets of clients -/

/-- Each client's bit of a set is its own (section 9.1). -/
theorem clientSet_bit (a : Client → Bool) (d : Client) : (clientSet (a 0) (a 1) (a 2) (a 3)).getLsbD d.val = a d := by
  have bits : ∀ x0 x1 x2 x3, (clientSet x0 x1 x2 x3).getLsbD 0 = x0 ∧ (clientSet x0 x1 x2 x3).getLsbD 1 = x1 ∧
      (clientSet x0 x1 x2 x3).getLsbD 2 = x2 ∧ (clientSet x0 x1 x2 x3).getLsbD 3 = x3 := by decide
  obtain ⟨h0, h1, h2, h3⟩ := bits (a 0) (a 1) (a 2) (a 3)
  match d with
  | 0 => exact h0
  | 1 => exact h1
  | 2 => exact h2
  | 3 => exact h3

theorem State.admins_bit (s : State) (d : Client) : s.admins.getLsbD d.val = (s.session d).admin :=
  clientSet_bit (fun d => (s.session d).admin) d

theorem State.openSessions_bit (s : State) (d : Client) : s.openSessions.getLsbD d.val = (s.session d).isOpen :=
  clientSet_bit (fun d => (s.session d).isOpen) d

theorem mem_clients (c : Client) : c ∈ clients := by fin_cases c <;> simp [clients]

theorem clients_ascend : clients.Pairwise (· < ·) := by decide

/-! ### Ticks -/

theorem remaining_eq (now due : Tick) : remaining now due = if (now - due).toNat < 2 ^ 31 then 0 else due - now := by
  simp only [remaining, reached, decide_eq_true_eq]

/-! ### Free slots (R25, R53) -/

theorem State.freeLeaseSlot_none {s : State} : s.freeLeaseSlot = none ↔ ∀ i, s.lease i ≠ none := by
  simp [State.freeLeaseSlot, leaseSlots]

theorem State.freeLeaseSlot_free {s : State} {i : LeaseSlot} (h : s.freeLeaseSlot = some i) : s.lease i = none := by
  simpa using List.find?_some h

theorem State.freeWaiterSlot_none {s : State} : s.freeWaiterSlot = none ↔ ∀ j, s.waiter j ≠ none := by
  simp [State.freeWaiterSlot, waiterSlots]

theorem State.freeWaiterSlot_free {s : State} {j : WaiterSlot} (h : s.freeWaiterSlot = some j) : s.waiter j = none := by
  simpa using List.find?_some h

/-! ### Holders (R5, R32) -/

theorem Resource.mem_holderList {x : Resource} {c : Client} {i : LeaseSlot} :
    (c, i) ∈ x.holderList ↔ x.holders[c] = some i := by
  unfold Resource.holderList
  rw [List.mem_filterMap]
  constructor
  · rintro ⟨d, _, hd⟩
    obtain ⟨j, hj, he⟩ := Option.map_eq_some_iff.1 hd
    cases he
    exact hj
  · intro h
    exact ⟨c, mem_clients c, by simp [h]⟩

/-- The holder list ascends in client number. -/
theorem Resource.holderList_ascends (x : Resource) : x.holderList.Pairwise fun a b => a.1 < b.1 := by
  unfold Resource.holderList
  apply List.Pairwise.filterMap _ _ clients_ascend
  intro a a' h b hb b' hb'
  obtain ⟨j, hj, rfl⟩ := Option.map_eq_some_iff.1 (Option.mem_def.1 hb)
  obtain ⟨j', hj', rfl⟩ := Option.map_eq_some_iff.1 (Option.mem_def.1 hb')
  exact h

theorem Resource.holderCount_le (x : Resource) : x.holderCount ≤ 4 :=
  (List.length_filterMap_le _ _).trans (by decide)

theorem Resource.holderCount_pos {x : Resource} {c : Client} {i : LeaseSlot} (h : x.holders[c] = some i) :
    0 < x.holderCount := List.length_pos_of_mem (Resource.mem_holderList.2 h)

theorem State.allShared_iff {s : State} {r : ResourceId} :
    s.allShared r = true ↔ ∀ c : Client, ∀ i ∈ (s.resource r).holders[c], ∀ l ∈ s.lease i, l.mode = .shared := by
  unfold State.allShared
  rw [List.all_eq_true]
  constructor
  · intro h c i hi l hl
    have h2 := h (c, i) (Resource.mem_holderList.2 hi)
    rw [Option.mem_def.1 hl] at h2
    simpa using h2
  · rintro h ⟨c, i⟩ hm
    have h2 := h c i (Resource.mem_holderList.1 hm)
    cases hl : s.lease i with
    | none => rfl
    | some l => simpa using h2 l hl

theorem State.waitingSlot_isSome {s : State} {r : ResourceId} {c : Client} :
    (s.waitingSlot r c).isSome = true ↔ ∃ j ∈ (s.resource r).queue, ∃ w ∈ s.waiter j, w.client = c := by
  unfold State.waitingSlot
  rw [List.find?_isSome]
  simp [Option.any_eq_true]

/-! ### Resolved handles (R28, R55) -/

theorem State.resolveLease_valid {s : State} {h : Option LeaseHandle} {i : LeaseSlot} {l : Lease}
    (hr : s.resolveLease h = .valid i l) : s.lease i = some l := by
  unfold State.resolveLease at hr
  split at hr
  · cases hr
  · simp only at hr
    split at hr
    · rename_i hx
      cases hr
      split at hx
      · exact hx
      · cases hx
    · split at hr <;> cases hr

theorem State.resolveOwnLease_valid {s : State} {c : Client} {h : Option LeaseHandle} {i : LeaseSlot} {l : Lease}
    (hr : s.resolveOwnLease c h = .valid i l) : s.lease i = some l ∧ l.holder = c := by
  unfold State.resolveOwnLease at hr
  split at hr
  · rename_i h1
    split at hr
    · cases hr
      exact ⟨State.resolveLease_valid h1, by assumption⟩
    · cases hr
  · rename_i h1
    exact absurd hr (h1 _ _)

theorem State.resolveWaiter_valid {s : State} {c : Client} {h : Option WaiterHandle} {j : WaiterSlot} {w : Waiter}
    (hr : s.resolveWaiter c h = .valid j w) : s.waiter j = some w ∧ w.client = c := by
  unfold State.resolveWaiter at hr
  split at hr
  · cases hr
  · simp only at hr
    split at hr
    · rename_i hx
      split at hr
      · cases hr
        split at hx
        · exact ⟨hx, by assumption⟩
        · cases hx
      · cases hr
    · split at hr
      · rename_i o _
        cases o <;> cases hr
      · cases hr

end Sys2Proof.Machine
end

