-- ==== Sys2Proof/Laws/Requests.lean ====
section
/-!
SUPPORT. What the engine's taking of a request and of an expiry comes to: the one lemma each that says all it can do,
and how a frame over the event's own work becomes the frame of the command.
-/

namespace Sys2Proof.Machine

variable {s u : State} {p : Client} {q : Request} {k : Kind} {m : Touched}

/-! ### Requests -/

theorem State.Serving.commonCheck (h : s.Serving p q k) : commonCheck k q (s.session p) = none := by
  have h2 : ¬ ((s.session p).isOpen = false ∧ k ≠ .openSession) := by
    rintro ⟨h3, h4⟩; simp [h.isOpen h4] at h3
  have h3 : ¬ (k.isAdmin = true ∧ (s.session p).admin = false) := by
    rintro ⟨h4, h5⟩; simp [h.admin h4] at h5
  simp only [Machine.commonCheck, if_neg h2, if_neg h3, h.length, ne_eq, not_true_eq_false, if_false]

/-- The engine takes a request that passes the common checks: its kind's own effect, the delivery test, the answer. -/
theorem State.serve_of_serving (h : s.Serving p q k) (body : List Byte → State → Reply × State) :
    s.serve p k body
      = (s.testHead (body q.params s.beginEvent).2.endEvent).answer p q (body q.params s.beginEvent).1 := by
  simp [State.serve, h.offered, h.kind, State.decideRequest, h.commonCheck]

/-- All that the taking of a request can come to (R2). -/
theorem State.serve_cases (s : State) (p : Client) (k : Kind) (body : List Byte → State → Reply × State) :
    (s.serve p k body = s ∧ ∀ q, s.offered p = some q → kindOfByte q.kind ≠ some k) ∨
    ∃ q, s.offered p = some q ∧ kindOfByte q.kind = some k ∧
      ((∃ status, Machine.commonCheck k q (s.session p) = some status ∧
          s.serve p k body = (s.beginEvent.endEvent).answer p q (.plain status)) ∨
        (s.Serving p q k ∧ s.serve p k body
          = (s.testHead (body q.params s.beginEvent).2.endEvent).answer p q (body q.params s.beginEvent).1)) := by
  unfold State.serve
  split
  · left; simp_all
  · rename_i q hq
    by_cases hk : kindOfByte q.kind = some k
    · right
      refine ⟨q, hq, hk, ?_⟩
      rw [if_pos hk]
      cases hc : Machine.commonCheck k q (s.session p) with
      | some status => left; exact ⟨status, rfl, by simp [State.decideRequest, hc, refuse]⟩
      | none =>
        right
        refine ⟨?_, by simp [State.decideRequest, hc]⟩
        unfold Machine.commonCheck at hc
        split at hc
        · cases hc
        · rename_i h1
          split at hc
          · cases hc
          · rename_i h2
            split at hc
            · cases hc
            · rename_i h3
              exact ⟨hq, hk, by simpa using h1, fun h4 => by
                cases h5 : (s.session p).isOpen
                · exact absurd ⟨h5, h4⟩ h2
                · rfl, fun h4 => by
                cases h5 : (s.session p).admin
                · exact absurd ⟨h4, h5⟩ h3
                · rfl⟩
    · left
      rw [if_neg hk]
      refine ⟨rfl, fun q' hq' => ?_⟩
      rw [hq] at hq'; cases hq'; exact hk

/-! ### From the event's own work to the command -/

theorem Gate.after_cuts_sets (g : Gate) (cuts sets : List Line) :
    g.after (cuts.map .cut ++ sets.map .set)
      = ⟨sets.foldl (fun lines x => setLine lines x true) (cuts.foldl (fun lines x => setLine lines x false) g.lines), [],
          cuts.map .cut ++ sets.map .set⟩ := by
  simp only [Gate.after, List.foldl_append, List.foldl_map, LineCommand.drive]

/-- The event ends and its request is answered; the delivery test may follow (`State.testHead_answer`). -/
theorem State.Inner.served {cuts sets : List Line} (h : s.Inner u m cuts sets) (a : Reply) :
    s.Served (u.endEvent.answer p q a) p q a.status a.results m (cuts.map .cut ++ sets.map .set) := by
  obtain ⟨h, hn, hg⟩ := h
  have hp : ∀ d, u.port d = s.port d := fun d => by simpa using h.ports d (by simp)
  refine ⟨by simp [State.answer_port, hp, hn], ?_⟩
  refine ⟨by simpa using h.resetHeld, by simpa using h.pending, by simpa using h.timeBase, by simpa using h.resources,
    by simpa using h.leases, by simpa using h.waiters, by simpa using h.sessions, by simpa using h.boxes, ?_,
    by simpa using h.entries, by simpa using h.owed, ?_⟩
  · intro d hd
    have : d ≠ p := by simpa using hd
    simp [State.answer_port, this, hp]
  · simp only [State.answer_gate, State.endEvent_gate, Gate.after_cuts_sets, hg]

/-- The event that took an expiry ends. -/
theorem State.Inner.taken {cuts sets : List Line} (h : s.Inner u { m with owed := true } cuts sets) (hm : m.ports = [])
    (ho : u.deadlines.owed = none) : s.Taken u.endEvent m (cuts.map .cut ++ sets.map .set) := by
  obtain ⟨h, -, hg⟩ := h
  refine ⟨by simpa using ho, ?_⟩
  refine ⟨by simpa using h.resetHeld, by simpa using h.pending, by simpa using h.timeBase, by simpa using h.resources,
    by simpa using h.leases, by simpa using h.waiters, by simpa using h.sessions, by simpa using h.boxes,
    by simpa [hm] using h.ports, by simpa using h.entries, by simp, ?_⟩
  simp only [State.endEvent_gate, Gate.after_cuts_sets, hg]

/-- Nothing done yet. -/
theorem State.Inner.begin (s : State) : s.Inner s.beginEvent {} [] [] := by
  refine ⟨⟨?_, ?_, ?_, ?_, ?_, ?_, ?_, ?_, ?_, ?_, ?_, ?_⟩, ?_, ?_⟩ <;> simp

end Sys2Proof.Machine
end

