-- ==== Sys2Proof/Laws/Commands.lean ====
section
/-!
SUPPORT. The commands one by one and by their kinds: what the engine's taking of a request of each kind and of an expiry
of each purpose calls, a case split over all commands, and the readings of the state that no request changes.
-/

namespace Sys2Proof.Machine

/-! ### The commands by kind -/

/-- A request kind's own checks and effect. -/
def Kind.body (p : Client) : Kind → List Byte → State → Reply × State
  | .openSession => openSessionBody p
  | .closeSession => closeSessionBody p
  | .setThreshold => setThresholdBody p
  | .acquire => acquireBody p
  | .renew => renewBody p
  | .release => releaseBody p
  | .downgrade => downgradeBody p
  | .cancel => cancelBody p
  | .queryLease => queryLeaseBody p
  | .queryResource => queryResourceBody
  | .queryDevice => queryDeviceBody
  | .configureResource => configureResourceBody
  | .setOnline => setOnlineBody
  | .takeOffline => takeOfflineBody
  | .clearFence => clearFenceBody
  | .revoke => revokeBody
  | .setTimebase => setTimebaseBody
  | .setRights => setRightsBody
  | .evictClient => evictClientBody

theorem exec_kind (k : Kind) (p : Client) (s : State) : exec (k.command p) s = .next (s.serve p k (k.body p)) := by
  cases k <;> rfl

/-- A current expiry's effect, by purpose. -/
def Purpose.act : Purpose → Entry → State → State
  | .warn => warnAct
  | .expire => expireAct
  | .slice => sliceAct
  | .grace => graceAct
  | .wait => waitAct
  | .settle => settleAct

theorem exec_purpose (u : Purpose) (s : State) : exec u.command s = .next (s.takeExpiry u u.act) := by
  cases u <;> rfl

/-- A request that passes the common checks is served by its kind's own checks and effect. -/
theorem State.Serving.exec {s : State} {p : Client} {q : Request} {k : Kind} (h : s.Serving p q k) :
    exec (k.command p) s = .next ((s.testHead (k.body p q.params s.beginEvent).2.endEvent).answer p q
      (k.body p q.params s.beginEvent).1) := by
  rw [exec_kind, State.serve_of_serving h]

/-- A property of every command, kind by kind. -/
theorem command_cases (P : Instr → Prop) (kinds : ∀ (k : Kind) (p : Client), P (k.command p))
    (expiries : ∀ u : Purpose, P u.command) (unknownKind : ∀ p, P (.unknownKind p))
    (teardownClaim : ∀ p, P (.teardownClaim p)) (discardedUnserved : ∀ p, P (.discardedUnserved p))
    (expiryDelivery : P .expiryDelivery) (tick : P .tick) (put : ∀ p frame, P (.put p frame))
    (takeAnswer : ∀ p flag seq more, P (.takeAnswer p flag seq more))
    (takeNotice : ∀ p flag seq more, P (.takeNotice p flag seq more)) (status : ∀ p more, P (.status p more))
    (unknownTransaction : ∀ p selector more, P (.unknownTransaction p selector more))
    (cutTransaction : ∀ p received, P (.cutTransaction p received)) (placeAnswer : ∀ p, P (.placeAnswer p))
    (portReset : ∀ p, P (.portReset p)) (pclrDeasserted : ∀ p, P (.pclrDeasserted p)) (deviceReset : P .deviceReset)
    (resetDeasserted : P .resetDeasserted) (c : Instr) : P c := by
  cases c
  case openSession p => exact kinds .openSession p
  case closeSession p => exact kinds .closeSession p
  case setThreshold p => exact kinds .setThreshold p
  case acquire p => exact kinds .acquire p
  case renew p => exact kinds .renew p
  case release p => exact kinds .release p
  case downgrade p => exact kinds .downgrade p
  case cancel p => exact kinds .cancel p
  case queryLease p => exact kinds .queryLease p
  case queryResource p => exact kinds .queryResource p
  case queryDevice p => exact kinds .queryDevice p
  case configureResource p => exact kinds .configureResource p
  case setOnline p => exact kinds .setOnline p
  case takeOffline p => exact kinds .takeOffline p
  case clearFence p => exact kinds .clearFence p
  case revoke p => exact kinds .revoke p
  case setTimebase p => exact kinds .setTimebase p
  case setRights p => exact kinds .setRights p
  case evictClient p => exact kinds .evictClient p
  case warnExpiry => exact expiries .warn
  case expireExpiry => exact expiries .expire
  case sliceExpiry => exact expiries .slice
  case graceExpiry => exact expiries .grace
  case waitExpiry => exact expiries .wait
  case settleExpiry => exact expiries .settle
  case unknownKind p => exact unknownKind p
  case teardownClaim p => exact teardownClaim p
  case discardedUnserved p => exact discardedUnserved p
  case placeAnswer p => exact placeAnswer p
  case portReset p => exact portReset p
  case pclrDeasserted p => exact pclrDeasserted p
  all_goals
    first
    | apply expiryDelivery | apply tick | apply put | apply takeAnswer | apply takeNotice | apply status
    | apply unknownTransaction | apply cutTransaction | apply deviceReset | apply resetDeasserted

/-! ### Refusals -/

variable {s : State} {p : Client} {q : Request} {k : Kind}

/-- A request whose own checks answer without a change is refused. -/
theorem State.Serving.refused {body : List Byte → State → Reply × State} {status : Status} {results : List Byte}
    (h : s.Serving p q k) (hb : body q.params s.beginEvent = (⟨status, results⟩, s.beginEvent)) :
    s.Refused (s.serve p k body) p q status results := by
  rw [State.serve_of_serving h, hb, State.testHead_nothing_done]
  exact (State.Inner.begin s).served ⟨status, results⟩

/-- A request that fails a common check is refused with that check's status. -/
theorem State.refused_of_commonCheck {body : List Byte → State → Reply × State} {status : Status}
    (h1 : s.offered p = some q) (h2 : kindOfByte q.kind = some k)
    (hc : Machine.commonCheck k q (s.session p) = some status) :
    s.Refused (s.serve p k body) p q status [] := by
  have e : s.serve p k body = (s.beginEvent.endEvent).answer p q (.plain status) := by
    simp [State.serve, h1, h2, State.decideRequest, hc, refuse]
  rw [e]
  exact (State.Inner.begin s).served (.plain status)

/-! ### Readings of the state that no request changes -/

/-- A reading that the removal of a whole queue keeps. -/
theorem KeptByWrites.dropQueue {α : Type} {f : State → α} (h : KeptByWrites f) (s : State) (r : ResourceId) :
    f (s.dropQueue r) = f s := by
  unfold State.dropQueue
  generalize (s.resource r).queue = l
  induction l generalizing s with
  | nil => rfl
  | cons j l ih =>
    rw [List.foldl_cons, ih]
    unfold State.dropWaiterOffline
    split
    · rfl
    · exact (h.freeWaiter _ _ _).trans ((h.giveBack _ _ _).trans (h.post _ _ _))

/-- A reading that the writes of every request keep, whatever they write. -/
structure KeptByRequests {α : Type} (f : State → α) : Prop extends KeptByWrites f where
  anyResource : ∀ s r x, f (s.setResource r x) = f s
  anySession : ∀ s c x, f (s.setSession c x) = f s
  anyBox : ∀ s c x, f (s.setBox c x) = f s
  anyTimeBase : ∀ s (t : TimeBase), t.counter = s.timeBase.counter → f (s.setTimeBase t) = f s

variable {α : Type} {f : State → α}

theorem KeptByRequests.endSession (h : KeptByRequests f) (s : State) (c : Client) (o : Outcome) (cause : EndCause)
    (e : SessionEnd) : f (s.endSession c o cause e).1 = f s := by
  simp only [State.endSession, State.closeContext, h.anySession, h.anyBox, State.endLeases, State.removeWaiters,
    h.toKeptByWrites.run]

theorem KeptByRequests.body (h : KeptByRequests f) (k : Kind) (p : Client) (params : List Byte) (s : State) :
    f (k.body p params s).2 = f s := by
  cases k <;> simp only [Kind.body]
  all_goals
    simp only [openSessionBody, closeSessionBody, setThresholdBody, renewBody, releaseBody, downgradeBody, cancelBody,
      queryLeaseBody, queryResourceBody, queryDeviceBody, configureResourceBody, setOnlineBody, takeOfflineBody,
      takeOfflineReply, clearFenceBody, revokeBody, revokeReply, setTimebaseBody, setRightsBody, evictClientBody,
      acquireBody, State.admitted, State.grantNow, State.queuedPath, State.teardown]
    repeat' split
    all_goals simp [refuse, h.anyResource, h.anySession, h.anyBox, h.anyTimeBase, h.toKeptByWrites.run, h.endSession,
      State.armLease, h.arm, h.toKeptByWrites.setLease, State.endWaiter, h.toKeptByWrites.freeWaiter,
      h.toKeptByWrites.giveBack, State.offlineNow, State.beginDraining, h.toKeptByWrites.dropQueue, h.disarm,
      h.toKeptByWrites.settleOrIdle, h.toKeptByWrites.beginLease, h.toKeptByWrites.enqueue]

theorem keptByRequests_ports : KeptByRequests State.ports :=
  { kept_ports with
    anyResource := fun _ _ _ => rfl, anySession := fun _ _ _ => rfl, anyBox := fun _ _ _ => rfl,
    anyTimeBase := fun _ _ _ => rfl }

theorem keptByRequests_pending : KeptByRequests State.pending :=
  { kept_pending with
    anyResource := fun _ _ _ => rfl, anySession := fun _ _ _ => rfl, anyBox := fun _ _ _ => rfl,
    anyTimeBase := fun _ _ _ => rfl }

theorem keptByRequests_resetHeld : KeptByRequests State.resetHeld :=
  { kept_resetHeld with
    anyResource := fun _ _ _ => rfl, anySession := fun _ _ _ => rfl, anyBox := fun _ _ _ => rfl,
    anyTimeBase := fun _ _ _ => rfl }

theorem keptByRequests_now : KeptByRequests State.now where
  resource _ _ _ _ := rfl
  lease _ _ _ := rfl
  waiter _ _ _ := rfl
  session _ _ _ _ _ _ _ _ := rfl
  box _ _ _ _ := rfl
  arm _ _ := rfl
  disarm _ _ := rfl
  cut _ _ := rfl
  holdSet _ _ := rfl
  anyResource _ _ _ := rfl
  anySession _ _ _ := rfl
  anyBox _ _ _ := rfl
  anyTimeBase _ _ h := h

/-! ### Expiries -/

/-- The engine has taken the owed expiry and its event has begun. -/
def State.expiryTaken (s : State) : State := (s.setDeadlines { s.deadlines with owed := none }).beginEvent

theorem State.inner_expiryTaken (s : State) : s.Inner s.expiryTaken { owed := true } [] [] := by
  refine ⟨⟨?_, ?_, ?_, ?_, ?_, ?_, ?_, ?_, ?_, ?_, ?_, ?_⟩, ?_, ?_⟩ <;> simp [State.expiryTaken]

theorem State.takeExpiry_of_owed {e : Entry} {u : Purpose} (ho : s.deadlines.owed = some e) (hp : e.purpose = u)
    (act : Entry → State → State) : s.takeExpiry u act = (act e s.expiryTaken).endEvent.deliver := by
  simp [State.takeExpiry, ho, hp, State.expiryTaken]

theorem State.Current.lease {e : Entry} {i : LeaseSlot} {l : Lease} (h : s.Current e) (ho : e.owner = .lease i)
    (hl : s.lease i = some l) : s.expiryTaken.currentLease e = some (i, l) := by
  unfold State.Current at h
  rw [ho] at h
  obtain ⟨l', hl', h3, h4, h5⟩ := h
  cases hl.symm.trans hl'
  have h1 : s.expiryTaken.lease i = some l := hl
  have h2 : s.expiryTaken.leaseRecord i = s.leaseRecord i := rfl
  simp [State.currentLease, ho, h1, h2, h3, h4, h5]

theorem State.Current.waiter {e : Entry} {j : WaiterSlot} {w : Waiter} (h : s.Current e) (ho : e.owner = .waiter j)
    (hw : s.waiter j = some w) : e.purpose = .wait ∧ s.expiryTaken.currentWaiter e = some (j, w) := by
  unfold State.Current at h
  rw [ho] at h
  obtain ⟨w', hw', h3, h4, h5⟩ := h
  cases hw.symm.trans hw'
  have h1 : s.expiryTaken.waiter j = some w := hw
  have h2 : s.expiryTaken.waiterRecord j = s.waiterRecord j := rfl
  exact ⟨h3, by simp [State.currentWaiter, ho, h1, h2, h4, h5]⟩

theorem State.Current.resource {e : Entry} {r : ResourceId} (h : s.Current e) (ho : e.owner = .resource r) :
    e.purpose = .settle ∧ s.expiryTaken.currentResource e = some r := by
  unfold State.Current at h
  rw [ho] at h
  obtain ⟨h3, h4, h5⟩ := h
  have h1 : s.expiryTaken.resource r = s.resource r := rfl
  exact ⟨h3, by simp [State.currentResource, ho, h1, h4, h5]⟩

end Sys2Proof.Machine
end

