-- ==== Sys2Proof/Laws/Leases.lean ====
section
/-!
SUPPORT. What the shared operations on leases, waiters and queues come to, each said once: the beginning and the freeing
of a lease, the freeing and the granting of a waiter, the removal of a queue, the recall, the resource's step when a lease
has left, and the items of work that set off nothing; and how frames follow one another.
-/

namespace Sys2Proof.Machine

/-! ### Frames one after another -/

/-- Two steps, neither of them a whole engine event, change what either of them changes. -/
theorem State.Frame.trans {s u v : State} {m n k : Touched} (h1 : s.Frame u { m with gate := none })
    (h2 : u.Frame v { n with gate := none }) (hr : m.resources ++ n.resources ⊆ k.resources)
    (hl : m.leases ++ n.leases ⊆ k.leases) (hw : m.waiters ++ n.waiters ⊆ k.waiters)
    (hs : m.sessions ++ n.sessions ⊆ k.sessions) (hb : m.boxes ++ n.boxes ⊆ k.boxes) (hp : m.ports ++ n.ports ⊆ k.ports)
    (ho : m.owners ++ n.owners ⊆ k.owners) (hd : (m.owed || n.owed) = true → k.owed = true)
    (ht : (m.timeBase || n.timeBase) = true → k.timeBase = true) : s.Frame v { k with gate := none } := by
  have key : ∀ {α : Type} {a b c : List α}, a ++ b ⊆ c → ∀ x, x ∉ c → x ∉ a ∧ x ∉ b := by
    intro α a b c h x hx
    exact ⟨fun ha => hx (h (by simp [ha])), fun ha => hx (h (by simp [ha]))⟩
  have flags : ∀ {a b c : Bool}, ((a || b) = true → c = true) → c = false → a = false ∧ b = false := by decide
  refine ⟨h2.resetHeld.trans h1.resetHeld, h2.pending.trans h1.pending,
    fun h => (h2.timeBase (flags ht h).2).trans (h1.timeBase (flags ht h).1),
    fun r h => (h2.resources r (key hr r h).2).trans (h1.resources r (key hr r h).1),
    fun r h => (h2.leases r (key hl r h).2).trans (h1.leases r (key hl r h).1),
    fun r h => (h2.waiters r (key hw r h).2).trans (h1.waiters r (key hw r h).1),
    fun r h => (h2.sessions r (key hs r h).2).trans (h1.sessions r (key hs r h).1),
    fun r h => (h2.boxes r (key hb r h).2).trans (h1.boxes r (key hb r h).1),
    fun r h => (h2.ports r (key hp r h).2).trans (h1.ports r (key hp r h).1), ?_,
    fun h => (h2.owed (flags hd h).2).trans (h1.owed (flags hd h).1), h2.gate.trans h1.gate⟩
  have sub : ∀ owners : List Owner, owners ⊆ k.owners → ∀ l : List Entry,
      l.filter (fun e => decide (e.owner ∉ k.owners))
        = (l.filter (fun e => decide (e.owner ∉ owners))).filter (fun e => decide (e.owner ∉ k.owners)) := by
    intro owners h l
    rw [List.filter_filter]
    apply List.filter_congr
    intro e _
    by_cases hk : e.owner ∈ k.owners
    · simp [hk]
    · have : e.owner ∉ owners := fun h' => hk (h h')
      simp [hk, this]
  have hm : m.owners ⊆ k.owners := fun x hx => ho (by simp [hx])
  have hn : n.owners ⊆ k.owners := fun x hx => ho (by simp [hx])
  show v.deadlines.entries.filter (fun e => decide (e.owner ∉ k.owners))
    = s.deadlines.entries.filter (fun e => decide (e.owner ∉ k.owners))
  rw [sub _ hn v.deadlines.entries, h2.entries, ← sub _ hn, sub _ hm u.deadlines.entries, h1.entries, ← sub _ hm]

/-- The entries of an owner that a frame does not name stand as they stood. -/
theorem State.Frame.entriesOf {s t : State} {m : Touched} (h : s.Frame t m) {o : Owner} (ho : o ∉ m.owners) :
    t.entriesOf o = s.entriesOf o := by
  have e : ∀ l : List Entry, (l.filter fun a => decide (a.owner = o) && decide (a.owner ∉ m.owners))
      = l.filter fun a => decide (a.owner = o) := by
    intro l
    apply List.filter_congr
    intro x _
    by_cases hx : x.owner = o <;> simp [hx, ho]
  have h2 := congrArg (List.filter fun e : Entry => decide (e.owner = o)) h.entries
  rw [List.filter_filter, List.filter_filter, e, e] at h2
  exact h2

/-- Within an engine event: what a further step changes joins what the event has changed before. -/
theorem State.Inner.trans {s u v : State} {m n k : Touched} {cuts cuts' sets' : List Line} (h1 : s.Inner u m cuts [])
    (h2 : u.Frame (v.setGate u.gate) { n with gate := none }) (hn : v.now = u.now) (hnp : n.ports = [])
    (hg : v.gate = ⟨cuts'.foldl (fun lines x => setLine lines x false) u.gate.lines, sets',
      u.gate.driven ++ cuts'.map .cut⟩)
    (hr : m.resources ++ n.resources ⊆ k.resources) (hl : m.leases ++ n.leases ⊆ k.leases)
    (hw : m.waiters ++ n.waiters ⊆ k.waiters) (hs : m.sessions ++ n.sessions ⊆ k.sessions)
    (hb : m.boxes ++ n.boxes ⊆ k.boxes) (ho : m.owners ++ n.owners ⊆ k.owners)
    (hd : (m.owed || n.owed) = true → k.owed = true) (ht : (m.timeBase || n.timeBase) = true → k.timeBase = true) :
    s.Inner v k (cuts ++ cuts') sets' := by
  refine ⟨?_, hn.trans h1.now, ?_⟩
  · have h2' : (u.setGate s.gate).Frame (v.setGate s.gate) { n with gate := none } :=
      ⟨h2.resetHeld, h2.pending, h2.timeBase, h2.resources, h2.leases, h2.waiters, h2.sessions, h2.boxes, h2.ports,
        h2.entries, h2.owed, rfl⟩
    exact State.Frame.trans (m := { m with ports := [] }) (k := { k with ports := [] }) h1.frame h2' hr hl hw hs hb
      (by simp [hnp]) ho hd ht
  · rw [hg, h1.gate]
    simp

/-! ### Work that sets off nothing -/

theorem runWork_step {n : Nat} (h : 0 < n) (w : Work) (rest : List Work) (s : State) :
    runWork n (w :: rest) s = runWork (n - 1) ((doWork w s).2 ++ rest) (doWork w s).1 := by
  obtain ⟨m, rfl⟩ : ∃ m, n = m + 1 := ⟨n - 1, by omega⟩
  rfl

/-- An event of one item that sets off nothing. -/
theorem State.run_single {w : Work} {s : State} (h : (doWork w s).2 = []) : s.run [w] = (doWork w s).1 := by
  unfold State.run engineFuel
  rw [runWork_step (by decide), h]
  simp

theorem State.setResource_setResource (s : State) (r : ResourceId) (x y : Resource) :
    (s.setResource r x).setResource r y = s.setResource r y := by
  simp [State.setResource]

/-- A grant pass on an empty queue clears the starved mark (R64). -/
theorem doWork_pass_empty {s : State} {r : ResourceId} (h : (s.resource r).queue = []) :
    doWork (.pass r) s = (s.setResource r { s.resource r with starved := false }, []) := by
  simp only [doWork, State.grantPass, State.passWalk, h, walkQueue]
  split <;> simp [h]

/-- With no resource starved, no pass follows a lease's end (R65). -/
theorem doWork_starvedFrom_none {s : State} (h : ∀ r, (s.resource r).starved = false) (n : Nat) :
    doWork (.starvedFrom n) s = (s, []) := by
  have : s.nextStarved n = none := by simp [State.nextStarved, h]
  simp [doWork, this]

/-! ### The recall (R74, R75) -/

theorem doWork_recall {s : State} {i : LeaseSlot} {l : Lease} {reason : RecallReason} {grace : Byte}
    (hl : s.lease i = some l) (ha : l.state = .active) (hg : grace ≠ 0) :
    let l' : Lease := { l with state := .recalling reason, phase := .grace, deadline := s.now + grace.setWidth 32 }
    doWork (.recallLease i reason grace) s
      = ((((s.post l.holder (s.recallNotice i l reason grace)).setLease i l').armLease i l'), []) := by
  have : ¬ grace = 0#8 := hg
  simp only [doWork, State.recallLease, hl, ha, if_true, hg, if_false, decide_false]
  simp [State.recallNotice, State.leaseHandle, this]

theorem doWork_recall_cut {s : State} {i : LeaseSlot} {l : Lease} {reason : RecallReason} (hl : s.lease i = some l)
    (ha : l.state = .active) :
    doWork (.recallLease i reason 0) s
      = (((s.post l.holder (s.recallNotice i l reason 0)).setLease i { l with state := .recalling reason }),
        [.endLease i .forced]) := by
  simp only [doWork, State.recallLease, hl, ha, if_true]
  simp [State.recallNotice, State.leaseHandle]

/-! ### The end of a lease (R9 to R11, R27) -/

/-- The resource's own step when a lease has left its holder set. -/
def Resource.left (y : Resource) (cause : EndCause) (now : Tick) : Resource :=
  let mark := y.fenceMark || (cause.isForced && decide (y.config.forcedAction = .fence))
  if y.state = .draining then
    if y.holderCount = 0 then { y with state := .offline, fenceMark := false, starved := false } else y
  else if y.holderCount ≠ 0 then { y with fenceMark := mark }
  else if mark then { y with state := .fenced, fenceMark := false }
  else if y.config.settle = 0 then { y with state := .idle }
  else { y with state := .settling, settleDeadline := some (now + y.config.settle.setWidth 32) }

theorem Resource.afterEnd_eq (x : Resource) (c : Client) (cause : EndCause) (now : Tick) :
    x.afterEnd c cause now = Resource.left { x with holders := x.holders.set c none } cause now := rfl

theorem Resource.left_config (y : Resource) (cause : EndCause) (now : Tick) : (y.left cause now).config = y.config := by
  simp only [Resource.left]; split_ifs <;> rfl

theorem Resource.left_queue (y : Resource) (cause : EndCause) (now : Tick) : (y.left cause now).queue = y.queue := by
  simp only [Resource.left]; split_ifs <;> rfl

theorem Resource.left_holders (y : Resource) (cause : EndCause) (now : Tick) :
    (y.left cause now).holders = y.holders := by
  simp only [Resource.left]; split_ifs <;> rfl

theorem Resource.left_starved {y : Resource} (cause : EndCause) (now : Tick) (h : y.starved = false) :
    (y.left cause now).starved = false := by
  simp only [Resource.left]; split_ifs <;> simp [h]

/-- On a HELD or DRAINING resource: its record takes its step, a settle is armed, and at most a grant pass follows. -/
theorem State.afterLeaseLeft_eq (s : State) (r : ResourceId) (cause : EndCause)
    (h : (s.resource r).state = .held ∨ (s.resource r).state = .draining) :
    (s.afterLeaseLeft r cause).1 = (if ((s.resource r).left cause s.now).state = .settling then
        (s.setResource r ((s.resource r).left cause s.now)).arm
          ⟨.resource r, none, .settle, s.now + (s.resource r).config.settle.setWidth 32⟩
      else s.setResource r ((s.resource r).left cause s.now)) ∧
    ((s.afterLeaseLeft r cause).2 = [] ∨
      ((s.afterLeaseLeft r cause).2 = [.pass r] ∧ ((s.resource r).left cause s.now).state ≠ .settling)) := by
  have key : ∀ m : Bool, ((s.resource r).fenceMark || (s.resource r).config.fences cause) = m →
      ((s.resource r).fenceMark || (cause.isForced && decide ((s.resource r).config.forcedAction = .fence))) = m →
      (s.afterLeaseLeft r cause).1 = (if ((s.resource r).left cause s.now).state = .settling then
          (s.setResource r ((s.resource r).left cause s.now)).arm
            ⟨.resource r, none, .settle, s.now + (s.resource r).config.settle.setWidth 32⟩
        else s.setResource r ((s.resource r).left cause s.now)) ∧
      ((s.afterLeaseLeft r cause).2 = [] ∨
        ((s.afterLeaseLeft r cause).2 = [.pass r] ∧ ((s.resource r).left cause s.now).state ≠ .settling)) := by
    intro m e1 e2
    simp only [State.afterLeaseLeft, Resource.left, State.settleOrIdle, State.enterSettling, e1, e2]
    rcases h with h | h <;> by_cases hc : (s.resource r).holderCount = 0 <;> cases m <;>
      by_cases hs : (s.resource r).config.settle = 0 <;> simp only [h, hc, hs, if_true, if_false] <;>
      simp [hc, Nat.pos_iff_ne_zero]
    all_goals exact (State.setResource_resource_eq _ _).symm
  exact key _ rfl rfl

@[simp] theorem State.freeLease_resource (s : State) (i : LeaseSlot) (cause : EndCause) (r : ResourceId) :
    (s.freeLease i cause).resource r = s.resource r := by
  unfold State.freeLease
  split
  · rfl
  · split
    · rfl
    · split <;> simp

/-- The freeing of a lease that has left its holder set. -/
theorem State.freeLease_eq {s : State} {i : LeaseSlot} {l : Lease} (cause : EndCause) (h1 : s.lease i = some l)
    (h2 : s.stands i l = false) :
    s.freeLease i cause = ((((s.disarm (.lease i)).setBox l.holder
        (if l.state = .active then (s.box l.holder).giveBack 1 else s.box l.holder)).setLeaseRecord i
          ⟨(s.leaseRecord i).incarnation + 1, some cause, none⟩).setSession l.holder (s.session l.holder).loseLease) := by
  unfold State.freeLease
  simp only [h1, h2, Bool.false_eq_true, if_false]
  by_cases ha : l.state = .active
  · simp [ha]
  · simp only [ha, if_false]
    have : (s.disarm (.lease i)).setBox l.holder (s.box l.holder) = s.disarm (.lease i) := State.setBox_box_eq _ _
    rw [this]
    rfl

/-! ### The end and the granting of a waiter (R56, R63, R72) -/

/-- The freeing of a waiter. -/
theorem State.freeWaiter_eq {s : State} {j : WaiterSlot} {w : Waiter} (o : Outcome) (h : s.waiter j = some w) :
    s.freeWaiter j o = ((((s.setResource w.resource { s.resource w.resource with
        queue := (s.resource w.resource).queue.filter fun k => !decide (k = j) }).disarm (.waiter j)).setWaiterRecord j
          ⟨(s.waiterRecord j).incarnation + 1, some o, none⟩).setSession w.client (s.session w.client).loseWaiter) := by
  unfold State.freeWaiter
  simp only [h]
  rfl

/-- The lease a grant makes of a waiter. -/
def Waiter.lease (w : Waiter) (c : ResourceConfig) (now : Tick) : Lease :=
  ⟨w.resource, w.client, w.mode, w.urgency, .active, (grantInterval c now w.term).phase,
    (grantInterval c now w.term).deadline, (grantInterval c now w.term).trim⟩

theorem State.grantWaiter_leaseRecord (s : State) (j : WaiterSlot) (w : Waiter) (i k : LeaseSlot) :
    (s.grantWaiter j w i).leaseRecord k = if k = i then
      { s.leaseRecord i with lease := some (w.lease (s.resource w.resource).config s.now) } else s.leaseRecord k := by
  have h1 : ∀ (u : State) o, (u.freeWaiter j o).leaseRecord k = u.leaseRecord k := by
    intro u o; unfold State.freeWaiter; split <;> simp
  simp only [State.grantWaiter, h1, State.beginLease]
  simp [State.setLease_leaseRecord, State.post, Waiter.lease]

theorem State.grantWaiter_waiterRecord {s : State} {j : WaiterSlot} {w : Waiter} (i : LeaseSlot) (k : WaiterSlot)
    (h : s.waiter j = some w) : (s.grantWaiter j w i).waiterRecord k = if k = j then
      ⟨(s.waiterRecord j).incarnation + 1, some (.granted (s.leaseHandle i)), none⟩ else s.waiterRecord k := by
  simp only [State.grantWaiter]
  rw [State.freeWaiter_eq (w := w)]
  · simp [State.beginLease, State.post, State.setWaiterRecord_waiterRecord, State.leaseHandle]
  · exact h

theorem State.grantWaiter_resource {s : State} {j : WaiterSlot} {w : Waiter} (i : LeaseSlot) (h : s.waiter j = some w)
    (k : ResourceId) : (s.grantWaiter j w i).resource k = if k = w.resource then { s.resource k with
        queue := (s.resource k).queue.filter (fun x => !decide (x = j))
        holders := (s.resource k).holders.set w.client (some i)
        state := if (s.resource k).state = .idle then .held else (s.resource k).state } else s.resource k := by
  simp only [State.grantWaiter]
  rw [State.freeWaiter_eq (w := w)]
  · simp [State.beginLease, State.post, State.setResource_resource]
    split
    · rename_i h; subst h; rfl
    · rfl
  · exact h

theorem State.grantWaiter_now (s : State) (j : WaiterSlot) (w : Waiter) (i : LeaseSlot) :
    (s.grantWaiter j w i).now = s.now := by
  unfold State.now
  rw [kept_timeBase.grantWaiter]

/-- The end of one waiter of a resource that is taken offline. -/
theorem State.dropWaiterOffline_eq {s : State} {j : WaiterSlot} {w : Waiter} (h : s.waiter j = some w) :
    s.dropWaiterOffline j = (((((s.setBox w.client (((s.box w.client).post s.now
        (s.waitEndedNotice j w .offline)).giveBack 1)).setResource w.resource { s.resource w.resource with
          queue := (s.resource w.resource).queue.filter fun k => !decide (k = j) }).disarm (.waiter j)).setWaiterRecord j
            ⟨(s.waiterRecord j).incarnation + 1, some .offline, none⟩).setSession w.client
              (s.session w.client).loseWaiter) := by
  unfold State.dropWaiterOffline
  simp only [h]
  rw [State.freeWaiter_eq (w := w)]
  · have : (s.post w.client (.waitEnded ⟨(s.waiterRecord j).incarnation, j⟩ w.resource .offline)).giveBack w.client 1
        = s.setBox w.client (((s.box w.client).post s.now (s.waitEndedNotice j w .offline)).giveBack 1) := by
      simp [State.post, State.giveBack, State.setBox, State.box, State.waitEndedNotice, State.waiterHandle]
    rw [this]
    rfl
  · exact h

/-! ### The place of a new waiter (R57) -/

/-- In a list in which what fails a test stands ahead of what passes it, what passes it is the tail. -/
theorem takeWhile_reverse_of_sorted {α : Type} (q : List α) (P : α → Bool)
    (h : q.Pairwise fun a b => P a = true → P b = true) :
    q = q.filter (fun a => !P a) ++ q.filter P ∧ (q.reverse.takeWhile P).length = (q.filter P).length := by
  induction q with
  | nil => exact ⟨rfl, rfl⟩
  | cons a q ih =>
    obtain ⟨h1, h2⟩ := List.pairwise_cons.1 h
    obtain ⟨i1, i2⟩ := ih h2
    cases hp : P a
    · simp only [List.filter_cons, hp, Bool.not_false, if_true, Bool.false_eq_true, if_false, List.cons_append]
      refine ⟨by rw [← i1], ?_⟩
      rw [List.reverse_cons, List.takeWhile_append]
      split
      · rename_i hh
        simp only [List.takeWhile_cons, hp, Bool.false_eq_true, if_false, List.append_nil]
        rw [← i2, hh]
      · exact i2
    · have hall : ∀ b ∈ q, P b = true := fun b hb => h1 b hb hp
      have e1 : q.filter (fun a => !P a) = [] := by
        rw [List.filter_eq_nil_iff]; intro b hb; simp [hall b hb]
      have e2 : q.filter P = q := by rw [List.filter_eq_self]; exact hall
      have e3 : (a :: q).reverse.takeWhile P = (a :: q).reverse := by
        rw [List.takeWhile_eq_self_iff]
        intro b hb
        rcases List.mem_cons.1 (List.mem_reverse.1 hb) with rfl | hb
        · exact hp
        · exact hall b hb
      simp only [List.filter_cons, hp, Bool.not_true, Bool.false_eq_true, if_false, if_true, e1, e2, List.nil_append,
        true_and]
      rw [e3]
      simp

end Sys2Proof.Machine
end

