-- ==== Sys2Proof/Tests/Slice0.lean ====
section
/-!
SUPPORT. The package's own tests: one-step checks of commands against figures the manual gives, the refusals of
WellFormed, and, for every statement of the provers that has hypotheses, a state and operands that meet them.
-/

set_option Elab.async false

namespace Sys2Proof.Tests

open Sys2Proof Sys2Proof.Machine

/-! ### Building small states -/

/-- A request frame's contents as a port stores them, with tag 0x77 and link generation 0. -/
def request (kind : Byte) (params : List Byte) : Request := ⟨kind, 0x77, natByte params.length, params, 0⟩

/-- The state in which port `p` offers one request. -/
def offering (p : Client) (kind : Byte) (params : List Byte) (s : State) : State :=
  s.setPort p { s.port p with buffer := [.request (request kind params) true], offer := some (.request (request kind params)) }

/-- The state in which client `c` holds the lease `l` in slot `i`. -/
def holding (i : LeaseSlot) (l : Lease) (s : State) : State :=
  let s := (s.setLease i l).armLease i l
  let x := s.resource l.resource
  let s := s.setResource l.resource { x with holders := x.holders.set l.holder (some i) }
  let s := s.setGate { s.gate with lines := setLine s.gate.lines ⟨l.resource, l.holder⟩ true }
  let s := if l.state = .active then s.setBox l.holder ((s.box l.holder).reserve 1) else s
  s.setSession l.holder (s.session l.holder).gainLease

/-- The state with resource `r` in a state, with a configuration. -/
def online (r : ResourceId) (x : ResourceState) (c : ResourceConfig) (s : State) : State :=
  s.setResource r { s.resource r with state := x, config := c }

/-- The state in which the expiry `e` has been delivered. -/
def owing (e : Entry) (s : State) : State :=
  s.setDeadlines ⟨s.deadlines.entries.filter fun x => !decide (x.owner = e.owner), some e⟩

/-- All four sessions are open, at tick 100. -/
def opened : State :=
  { State.reset with
    sessions := State.reset.sessions.map fun x => { x with isOpen := true, epoch := 1 }
    timeBase := ⟨1000, 0, 100⟩ }

/-- A shared, preemptible configuration with two holders at most. -/
def sharedConfig : ResourceConfig :=
  { ResourceConfig.default with sharing := .sharedAllowed, maxShared := 2, preemptible := true }

/-- The sliced configuration of section 10.5: slices of 12 and 4 sixteenths of a tick. -/
def slicedConfig : ResourceConfig := { ResourceConfig.default with policy := .sliced, sliceTicks := 12, sliceTrim := 4 }

/-- A board with a resource in each of the ways the statements speak of. Resource 0 is OFFLINE, 1 IDLE; A holds lease 0
on 2, ACTIVE, and lease 1 on 3, RECALLING; B holds lease 2 on 4, where A waits with waiter 0 and C with waiter 1;
5 is FENCED with settle 0 and 6 with settle 3; B holds lease 3 on 7, whose fence mark is set; 8 is SETTLING until 120;
A holds lease 4 on 9, SLICED; B holds lease 5 on 10, SLICED, where A waits with waiter 2; C holds lease 6 on 11, in
phase WARN. -/
def board : State :=
  let s := online 1 .idle sharedConfig opened
  let s := holding 0 ⟨2, 0, .exclusive, 0, .active, .expire, 300, 0⟩ (online 2 .held sharedConfig s)
  let s := holding 1 ⟨3, 0, .exclusive, 0, .recalling .revoked, .grace, 108, 0⟩ (online 3 .held ResourceConfig.default s)
  let s := holding 2 ⟨4, 1, .shared, 0, .active, .expire, 400, 0⟩ (online 4 .held sharedConfig s)
  let s := s.enqueue 0 ⟨4, 0, .exclusive, 1, 0, 500⟩
  let s := s.enqueue 1 ⟨4, 2, .shared, 0, 0, 500⟩
  let s := online 6 .fenced { ResourceConfig.default with settle := 3 } (online 5 .fenced ResourceConfig.default s)
  let s := holding 3 ⟨7, 1, .shared, 1, .active, .expire, 400, 0⟩ (online 7 .held sharedConfig s)
  let s := s.setResource 7 { s.resource 7 with fenceMark := true }
  let s := (s.setResource 8 { s.resource 8 with state := .settling, settleDeadline := some 120 }).arm
    ⟨.resource 8, none, .settle, 120⟩
  let s := holding 4 ⟨9, 0, .exclusive, 0, .active, .slice, 112, 12⟩ (online 9 .held slicedConfig s)
  let s := holding 5 ⟨10, 1, .exclusive, 0, .active, .slice, 112, 4⟩ (online 10 .held slicedConfig s)
  let s := s.enqueue 2 ⟨10, 0, .exclusive, 0, 0, 500⟩
  holding 6 ⟨11, 2, .exclusive, 0, .active, .warn, 140, 0⟩ (online 11 .held { ResourceConfig.default with warnLead := 10 } s)

/-- The state a command leaves. -/
def after (c : Instr) (s : State) : State :=
  match exec c s with
  | .next t => t
  | _ => s

/-- The answer a command has handed to port `p`: status and results. -/
def reply (p : Client) (c : Instr) (s : State) : Option (Status × List Byte) :=
  (((after c s).port p).inFlight.getLast?).map fun a => (a.status, a.results)

/-- What the answer of the one request of port `p` is. -/
def answered (p : Client) (k : Kind) (params : List Byte) (s : State) : Option (Status × List Byte) :=
  reply p (k.command p) (offering p k.code params s)

/-! ### The refusals of WellFormed (R148, R150, R158) -/

theorem test_wellFormed_refuses_short_put : (Instr.put 0 [0x01, 0x00, 0x00]).wellFormed = false := by decide

theorem test_wellFormed_takes_long_length : (Instr.put 0 [0x01, 0x00, 0x11]).wellFormed = true := by decide

theorem test_wellFormed_refuses_known_selector : (Instr.unknownTransaction 0 0x61 3).wellFormed = false := by decide

theorem test_wellFormed_refuses_complete_cut : (Instr.cutTransaction 0 [0x70]).wellFormed = false := by decide

/-! ### The frame check (section 9.3) and the table -/

/-- The nine digits give 0xF4. -/
theorem test_crc_digits : crc8 [0x31, 0x32, 0x33, 0x34, 0x35, 0x36, 0x37, 0x38, 0x39] = 0xF4 := by decide +kernel

/-- OPEN_SESSION with tag 0x00: the register runs 0x07, 0x15, 0x6B. -/
theorem test_crc_open_session : crc8 [0x01] = 0x07 ∧ crc8 [0x01, 0x00] = 0x15 ∧ crc8 [0x01, 0x00, 0x00] = 0x6B := by
  decide +kernel

theorem test_table_gives_no_bits : decodeTableWord 16 0x0165 = none := rfl

/-! ### Sessions and rights -/

/-- Section 10.8, step 2: OK, client 0, epoch 1, admin yes, DEVICE_RESET. -/
theorem test_open_session : answered 0 .openSession [] State.reset = some (.ok, [0x00, 0x00, 0x01, 0x01, 0x04]) := by
  decide +kernel

/-- Section 6.7, tick 140: SESSION_OPEN with epoch 1 and admin no. -/
theorem test_open_session_again : answered 2 .openSession [] opened = some (.sessionOpen, [0x02, 0x00, 0x01, 0x00]) := by
  decide +kernel

/-- R117: A closes with three leases and two waiters. -/
theorem test_close_session_counts : answered 0 .closeSession [] board = some (.ok, [0x03, 0x02]) := by decide +kernel

/-- Section 10.8, step 9: now 4, replaced 0. -/
theorem test_set_threshold : answered 0 .setThreshold [0x04] opened = some (.ok, [0x04, 0x00]) := by decide +kernel

/-- Section 10.8, step 5: {A, B}. -/
theorem test_set_rights : answered 0 .setRights [0x01, 0x01] opened = some (.ok, [0x03]) := by decide +kernel

/-- R126: the last right stays. -/
theorem test_set_rights_last : answered 0 .setRights [0x00, 0x00] opened = some (.lastAdmin, []) := by decide +kernel

/-- Section 6.7, tick 500: 0 leases, 0 waiters; the context is CLOSED and EVICTED. -/
theorem test_evict_client :
    answered 0 .evictClient [0x03] opened = some (.ok, [0x00, 0x00]) ∧
    ((after (.evictClient 0) (offering 0 0x17 [0x03] opened)).session 3).lastEnd = .evicted := by decide +kernel

/-- Section 6.7, tick 100: a client without a session. -/
theorem test_no_session : answered 2 .acquire [0x05, 0x00, 0x00, 0x00, 0x00, 0x00, 0x00] State.reset = some (.noSession, []) := by
  decide +kernel

/-- R165: kind bytes 0x0C and 0x18 are no known codes. -/
theorem test_unknown_kind :
    reply 0 (.unknownKind 0) (offering 0 0x0C [] State.reset) = some (.unknownKind, []) ∧
    reply 0 (.unknownKind 0) (offering 0 0x18 [] State.reset) = some (.unknownKind, []) := by decide +kernel

/-- Section 6.7, tick 300: a teardown with forced_action FENCE fences. -/
theorem test_teardown_fences :
    ((after (.teardownClaim 2) (board.setPort 2 { board.port 2 with offer := some .teardown, owedTeardowns := 1 })).resource 11).state
      = .fenced := by decide +kernel

/-! ### Leases and waiters -/

/-- Section 10.2, tick 100: term 200 ends at 300. -/
theorem test_acquire : answered 3 .acquire [0x01, 0x00, 0x00, 0xC8, 0x00, 0x00, 0x01] board
    = some (.ok, [0x00, 0x07, 0x00, 0x00, 0x00, 0x01, 0x2C, 0x00, 0xC8]) := by decide +kernel

/-- Section 10.2, tick 125: a client that already waits. -/
theorem test_acquire_duplicate : answered 2 .acquire [0x04, 0x00, 0x00, 0x00, 0x01, 0x90, 0x01] board
    = some (.duplicate, []) := by decide +kernel

/-- R44: the new term end is the taken tick plus the term. -/
theorem test_renew : answered 0 .renew [0x00, 0x00, 0x00, 0x0A] board
    = some (.ok, [0x00, 0x00, 0x00, 0x6E, 0x00, 0x0A]) := by decide +kernel

/-- Section 10.4, tick 402: a recalled lease. -/
theorem test_renew_too_late : answered 0 .renew [0x00, 0x01, 0x00, 0x00] board = some (.tooLate, []) := by decide +kernel

/-- R47: the line falls, and the slot keeps RELEASED. -/
theorem test_release :
    ((after (.release 0) (offering 0 0x06 [0x00, 0x00] board)).leaseRecord 0).prevEnd = some .released ∧
    (after (.release 0) (offering 0 0x06 [0x00, 0x00] board)).gate.driven = [.cut ⟨2, 0⟩] := by decide +kernel

/-- R29: after device reset L5.255 is BAD_HANDLE. -/
theorem test_release_bad_handle : answered 0 .release [0xFF, 0x05] opened = some (.badHandle, []) := by decide +kernel

/-- R50: the holder count. -/
theorem test_downgrade : answered 0 .downgrade [0x00, 0x00] board = some (.ok, [0x01]) := by decide +kernel

/-- R69: both reservations are returned; A keeps one for each of lease 0 and lease 4, and two for waiter 2. -/
theorem test_cancel : ((after (.cancel 0) (offering 0 0x08 [0x00, 0x00] board)).box 0).reservations = 4 := by decide +kernel

/-- R51: resource 9, EXCLUSIVE, urgency 0, ACTIVE, no reason, SLICE, 12 ticks remaining. -/
theorem test_query_lease : answered 0 .queryLease [0x00, 0x04] board
    = some (.ok, [0x09, 0x00, 0x00, 0x00, 0x00, 0x02, 0x00, 0x00, 0x00, 0x0C]) := by decide +kernel

/-- R85: RECALLING with the grace deadline 110. -/
theorem test_revoke : answered 0 .revoke [0x00, 0x02, 0x00] board = some (.ok, [0x01, 0x00, 0x00, 0x00, 0x6E]) := by
  decide +kernel

/-- R85, R168: outcome CUT, grace deadline zero. -/
theorem test_revoke_cut : answered 0 .revoke [0x00, 0x01, 0x01] board = some (.ok, [0x02, 0x00, 0x00, 0x00, 0x00]) := by
  decide +kernel

/-! ### Resources and the device -/

/-- Sections 9.5 and 9.7: the reset record of an OFFLINE resource. -/
theorem test_query_resource : answered 0 .queryResource [0x0B] opened
    = some (.ok, [0x00, 0x00, 0x00, 0x01, 0x03, 0xE8, 0xEA, 0x60, 0x00, 0x64, 0x00, 0x00, 0x00, 0x0A, 0x00, 0x0F,
      0x00, 0x00, 0x00, 0xFF]) := by decide +kernel

/-- Section 10.8, step 3 (with all four sessions open, at tick 100). -/
theorem test_query_device : answered 0 .queryDevice [] opened
    = some (.ok, [0x00, 0x00, 0x00, 0x64, 0x03, 0xE8, 0x20, 0x18, 0x00, 0x01, 0x0F]) := by decide +kernel

/-- Section 10.8, step 6: modes 0x05, max_shared 2, default_term 5000, grace 8, settle 2. -/
theorem test_configure_resource :
    (let c := ((after (.configureResource 0) (offering 0 0x10 [0x06, 0x05, 0x02, 0x13, 0x88, 0xEA, 0x60, 0x00, 0x64, 0x00,
        0x00, 0x00, 0x08, 0x02, 0x0F] opened)).resource 6).config;
      (c.sharing, c.preemptible, c.maxShared, c.defaultTerm, c.grace, c.settle))
      = (.sharedAllowed, true, 2, 5000, 8, 2) := by decide +kernel

/-- Section 10.8, step 6: max_shared 2 with EXCLUSIVE_ONLY is BAD_PARAM. -/
theorem test_configure_resource_range : answered 0 .configureResource [0x06, 0x00, 0x02, 0x13, 0x88, 0xEA, 0x60, 0x00, 0x64,
    0x00, 0x00, 0x00, 0x08, 0x02, 0x0F] opened = some (.badParam, []) := by decide +kernel

/-- R17. -/
theorem test_set_online : ((after (.setOnline 0) (offering 0 0x11 [0x00] board)).resource 0).state = .idle := by decide +kernel

/-- R19: B's one lease on resource 4 is recalled and two waiters are removed. -/
theorem test_take_offline : answered 0 .takeOffline [0x04] board = some (.ok, [0x05, 0x01, 0x02]) := by decide +kernel

/-- R21: SETTLING until the taken tick plus settle. -/
theorem test_clear_fence :
    answered 0 .clearFence [0x06] board = some (.ok, [0x03]) ∧
    ((after (.clearFence 0) (offering 0 0x13 [0x06] board)).resource 6).settleDeadline = some 103 := by decide +kernel

/-- Section 10.8, step 4: divisor now 2000, replaced 1000. -/
theorem test_set_timebase : answered 0 .setTimebase [0x07, 0xD0] opened = some (.ok, [0x07, 0xD0, 0x03, 0xE8]) := by
  decide +kernel

/-! ### Time and expiries -/

/-- R95: the counter passes from 2^32 - 1 to 0. -/
theorem test_tick_wraps : (after .tick (opened.setTimeBase ⟨1000, 17, 0xFFFFFFFF⟩)).timeBase = ⟨1000, 0, 0⟩ := by decide +kernel

/-- Section 5.5: at 4294967294 the head due then is delivered; at 0 the entry due at 3 is not. -/
theorem test_delivery :
    (DeadlineList.deliver ⟨[⟨.resource 6, none, .settle, 4294967294⟩], none⟩ 4294967294).owed.isSome = true ∧
    (DeadlineList.deliver ⟨[⟨.waiter 0, some 3, .wait, 3⟩], none⟩ 0).owed.isSome = false := by decide +kernel

/-- Section 10.7, tick 1005: a WARNING with the lead remaining (here taken at its due tick 140, lead 10). -/
theorem test_warn_expiry :
    (((after .warnExpiry (owing ⟨.lease 6, some 0, .warn, 140⟩ (board.setTimeBase ⟨1000, 0, 140⟩))).box 2).queue.map Notice.body)
      = [.warning ⟨0, 6⟩ 11 10] := by decide +kernel

/-- Section 5.5: the advance to 4294967294 delivers the first of two entries due then. -/
theorem test_tick_delivers :
    (after .tick { opened with timeBase := ⟨1000, 0, 4294967293⟩, deadlines :=
      ⟨[⟨.lease 2, some 0, .expire, 4294967294⟩, ⟨.resource 6, none, .settle, 4294967294⟩], none⟩ }).deadlines
      = ⟨[⟨.resource 6, none, .settle, 4294967294⟩], some ⟨.lease 2, some 0, .expire, 4294967294⟩⟩ := by decide +kernel

/-- Section 5.5: as the stale EXPIRE is taken, the SETTLE that is reached is delivered at once. -/
theorem test_taking_delivers_the_next :
    (after .expireExpiry { opened with timeBase := ⟨1000, 0, 4294967295⟩, deadlines :=
      ⟨[⟨.resource 6, none, .settle, 4294967294⟩, ⟨.waiter 0, some 3, .wait, 3⟩],
        some ⟨.lease 2, some 0, .expire, 4294967294⟩⟩ }).deadlines
      = ⟨[⟨.waiter 0, some 3, .wait, 3⟩], some ⟨.resource 6, none, .settle, 4294967294⟩⟩ := by decide +kernel

/-- R101: the EXPIRE entry armed at a WARN expiry taken after the term end is delivered without another advance. -/
theorem test_arm_reached_delivers :
    (after .warnExpiry (owing ⟨.lease 6, some 0, .warn, 140⟩ { board with
      timeBase := ⟨1000, 0, 155⟩, deadlines := ⟨[], none⟩ })).deadlines.owed
      = some ⟨.lease 6, some 0, .expire, 150⟩ := by decide +kernel

/-- R42, R74: the grace runs from the taken tick. -/
theorem test_expire_expiry :
    (((after .expireExpiry (owing ⟨.lease 0, some 0, .expire, 300⟩ (board.setTimeBase ⟨1000, 0, 302⟩))).lease 0).map
      fun l => (l.state, l.phase, l.deadline)) = some (.recalling .expired, .grace, 312) := by decide +kernel

/-- Section 10.5: the fourth advance pays out a thirteenth tick, counted from the due tick. -/
theorem test_slice_expiry :
    (((after .sliceExpiry (owing ⟨.lease 4, some 0, .slice, 112⟩ (board.setTimeBase ⟨1000, 0, 114⟩))).lease 4).map
      fun l => (l.trim, l.deadline)) = some (0, 125) := by decide +kernel

/-- R91: with a waiter the slice ends in a recall. -/
theorem test_slice_expiry_recalls :
    (((after .sliceExpiry (owing ⟨.lease 5, some 0, .slice, 112⟩ (board.setTimeBase ⟨1000, 0, 114⟩))).lease 5).map
      fun l => (l.state, l.deadline)) = some (.recalling .sliceEnd, 124) := by decide +kernel

/-- R78, R10: the forced cut of the last lease fences, and the slot keeps FORCED. -/
theorem test_grace_expiry :
    (let t := after .graceExpiry (owing ⟨.lease 1, some 0, .grace, 108⟩ (board.setTimeBase ⟨1000, 0, 108⟩));
      ((t.resource 3).state, (t.leaseRecord 1).prevEnd)) = (.fenced, some .forced) := by decide +kernel

/-- R67: A's wait ends TIMED_OUT, and the shared waiter behind it joins the shared holder. -/
theorem test_wait_expiry :
    (let t := after .waitExpiry (owing ⟨.waiter 0, some 0, .wait, 500⟩ (board.setTimeBase ⟨1000, 0, 500⟩));
      ((t.waiterRecord 0).prevOutcome, (t.waiterRecord 1).prevOutcome, t.gate.driven))
      = (some .timedOut, some (.granted ⟨0, 7⟩), [.set ⟨4, 2⟩]) := by decide +kernel

/-- R12. -/
theorem test_settle_expiry :
    ((after .settleExpiry (owing ⟨.resource 8, none, .settle, 120⟩ (board.setTimeBase ⟨1000, 0, 120⟩))).resource 8).state
      = .idle := by decide +kernel

/-! ### The link -/

/-- R151: the frame of section 9.3 is accepted, and clears LINK_ERROR. -/
theorem test_put :
    (let x := (after (.put 0 [0x01, 0x00, 0x00, 0x6B]) (State.reset.linkError 0)).port 0;
      (x.buffer.length, x.linkError, x.offer.isSome)) = (1, false, true) := by decide +kernel

/-- R151: a wrong check byte sets LINK_ERROR. -/
theorem test_put_corrupt :
    (let x := (after (.put 0 [0x01, 0x00, 0x00, 0x6A]) State.reset).port 0;
      (x.buffer.length, x.linkError)) = (0, true) := by decide +kernel

/-- Section 10.8, step 1: the status byte after device reset is 0x00. -/
theorem test_status : ((after (.status 0 1) State.reset).port 0).shiftedOut = [0x00, 0x00] := by decide +kernel

/-- R155: an acknowledge of the head's sequence removes it, and the marker says empty. -/
theorem test_take_answer :
    (let x := (after (.takeAnswer 0 0x01 0x05 1)
        (State.reset.setPort 0 { State.reset.port 0 with buffer := [.answer 0x05 [0x05, 0x77]] })).port 0;
      (x.buffer, x.shiftedOut)) = ([], [0x01, 0x00, 0x00, 0x00]) := by decide +kernel

/-- R157, section 9.8: the notice frame of a WAIT_ENDED behind the marker. -/
theorem test_take_notice :
    (((after (.takeNotice 0 0x00 0x00 14)
        (opened.setBox 0 ((opened.box 0).append 100 (.waitEnded ⟨3, 9⟩ 7 .timedOut)))).port 0).shiftedOut.take 16)
      = [0x52, 0x00, 0x00, 0x01, 0x00, 0x03, 0x04, 0x00, 0x00, 0x00, 0x64, 0x04, 0x03, 0x09, 0x07, 0x01] := by decide +kernel

/-- R148: an unknown selecting byte changes nothing and sends fillers. -/
theorem test_unknown_transaction :
    (after (.unknownTransaction 0 0xFF 2) State.reset).setPort 0 (State.reset.port 0) = State.reset ∧
    ((after (.unknownTransaction 0 0xFF 2) State.reset).port 0).shiftedOut = [0x00, 0x00, 0x00] := by decide +kernel

/-- R150: a PUT of which no frame byte came in sets LINK_ERROR. -/
theorem test_cut_put : ((after (.cutTransaction 0 [0x50]) State.reset).port 0).linkError = true := by decide +kernel

/-- R158: a TAKE cut before its acknowledge sequence issues none. -/
theorem test_cut_take :
    ((after (.cutTransaction 0 [0x61, 0x01])
      (State.reset.setPort 0 { State.reset.port 0 with buffer := [.answer 0x05 [0x05, 0x77]] })).port 0).buffer.length = 1 := by
  decide +kernel

/-- Section 10.6, step 4: an answer of an old generation is discarded. -/
theorem test_place_answer :
    (let x := ((opened.port 0).resetPort);
      let x := { x with inFlight := [⟨0, 9, 4, .ok, 700, []⟩] };
      (x.placeAnswer.buffer, x.placeAnswer.answerSeq)) = ([], 0) := by decide +kernel

/-- Section 10.6, step 3: empty, sequence 0, generation 6, one claim owed. -/
theorem test_port_reset :
    (let x := (after (.portReset 2) (opened.setPort 2 { opened.port 2 with generation := 5, answerSeq := 14 })).port 2;
      (x.buffer, x.answerSeq, x.generation, x.owedTeardowns, x.offer)) = ([], 0, 6, 1, some .teardown) := by decide +kernel

/-- R161: only the level changes. -/
theorem test_pclr_deasserted : ((after (.pclrDeasserted 0) (State.reset.setPclr 0 true))) = State.reset := by decide +kernel

/-- R162: a withdrawn request is discarded unserved. -/
theorem test_discarded_unserved :
    (let t := after (.discardedUnserved 0) (after (.portReset 0) (offering 0 0x02 [] opened));
      ((t.port 0).withdrawn, (t.port 0).inFlight, (t.session 0).isOpen)) = (none, [], true) := by decide +kernel

/-- R96, R163: device reset and its release. -/
theorem test_device_reset :
    after .resetDeasserted (after .deviceReset board) = State.reset := by decide +kernel

/-! ### Witnesses: the hypotheses of the statements are met -/

/-- A request that passes the common checks, by computation. -/
theorem serving_of {s : State} {p : Client} {q : Request} {k : Kind}
    (h : s.offered p = some q ∧ kindOfByte q.kind = some k ∧ q.length.toNat = k.paramLength ∧
      (k ≠ .openSession → (s.session p).isOpen = true) ∧ (k.isAdmin = true → (s.session p).admin = true)) :
    s.Serving p q k := ⟨h.1, h.2.1, h.2.2.1, h.2.2.2.1, h.2.2.2.2⟩

/-- The state of `board` in which A offers a request of a kind. -/
def asked (k : Kind) (params : List Byte) : State := offering 0 k.code params board

/-- The request of `asked`. -/
def askedRequest (k : Kind) (params : List Byte) : Request := request k.code params

theorem witness_TickIsTheRestOfTheCycles :
    State.reset.pending = [] ∧ State.reset.timeBase.prescaler < State.reset.timeBase.divisor := by decide +kernel

/-- Every clause: an unknown kind, a wrong length, no session, no admin right. -/
theorem witness_CommonChecksRefuse :
    ((offering 0 0x0C [] opened).offered 0 = some (request 0x0C []) ∧ kindOfByte 0x0C = none) ∧
    ((offering 0 0x01 [0x00] opened).offered 0 = some (request 0x01 [0x00]) ∧ kindOfByte 0x01 = some .openSession ∧
      (request 0x01 [0x00]).length.toNat ≠ Kind.paramLength .openSession) ∧
    ((offering 2 0x02 [] State.reset).offered 2 = some (request 0x02 []) ∧
      (request 0x02 []).length.toNat = Kind.paramLength .closeSession ∧ (State.reset.session 2).isOpen = false) ∧
    ((offering 2 0x11 [0x00] opened).offered 2 = some (request 0x11 [0x00]) ∧
      (request 0x11 [0x00]).length.toNat = Kind.paramLength .setOnline ∧
      ((offering 2 0x11 [0x00] opened).session 2).isOpen = true ∧ Kind.isAdmin .setOnline = true ∧
      ((offering 2 0x11 [0x00] opened).session 2).admin = false) := by decide +kernel

theorem witness_RefusedRequestChangesNothing :
    (asked .renew [0x00, 0x01, 0x00, 0x00]).offered 0 = some (askedRequest .renew [0x00, 0x01, 0x00, 0x00]) ∧
    kindOfByte (askedRequest .renew [0x00, 0x01, 0x00, 0x00]).kind = some .renew := by decide +kernel

/-- A byte one above its field's range for each kind (R166). -/
theorem witness_OwnChecksRefuse_badParam :
    (asked .setThreshold [8]).Serving 0 (askedRequest .setThreshold [8]) .setThreshold ∧
    (asked .queryResource [12]).Serving 0 (askedRequest .queryResource [12]) .queryResource ∧
    (asked .setOnline [12]).Serving 0 (askedRequest .setOnline [12]) .setOnline ∧
    (asked .takeOffline [12]).Serving 0 (askedRequest .takeOffline [12]) .takeOffline ∧
    (asked .clearFence [12]).Serving 0 (askedRequest .clearFence [12]) .clearFence ∧
    (asked .evictClient [4]).Serving 0 (askedRequest .evictClient [4]) .evictClient ∧
    (asked .setRights [0, 2]).Serving 0 (askedRequest .setRights [0, 2]) .setRights ∧
    (asked .acquire [1, 2, 0, 0, 0, 0, 0]).Serving 0 (askedRequest .acquire [1, 2, 0, 0, 0, 0, 0]) .acquire ∧
    (asked .configureResource (List.replicate 15 0)).Serving 0
      (askedRequest .configureResource (List.replicate 15 0)) .configureResource ∧
      configAt (List.replicate 15 0) 1 = none ∧
    (asked .setTimebase [0x10, 0x01]).Serving 0 (askedRequest .setTimebase [0x10, 0x01]) .setTimebase ∧
      4096 < (halfAt [0x10, 0x01] 0).toNat ∧
    (asked .revoke [0, 0, 2]).Serving 0 (askedRequest .revoke [0, 0, 2]) .revoke ∧
      (asked .revoke [0, 0, 2]).resolveLease (handleAt 32 [0, 0, 2] 0)
        = .valid 0 ⟨2, 0, .exclusive, 0, .active, .expire, 300, 0⟩ := by
  refine ⟨serving_of ?_, serving_of ?_, serving_of ?_, serving_of ?_, serving_of ?_, serving_of ?_, serving_of ?_,
    serving_of ?_, serving_of ?_, ?_, serving_of ?_, ?_, serving_of ?_, ?_⟩ <;> decide +kernel

/-- A resource, the resources or a session in a state the rule does not allow. -/
theorem witness_OwnChecksRefuse_wrongState :
    (asked .configureResource (1 :: ResourceConfig.default.bytes)).Serving 0
      (askedRequest .configureResource (1 :: ResourceConfig.default.bytes)) .configureResource ∧
    (configAt (1 :: ResourceConfig.default.bytes) 1).isSome = true ∧ (board.resource 1).state ≠ .offline ∧
    (asked .setOnline [1]).Serving 0 (askedRequest .setOnline [1]) .setOnline ∧
    (asked .takeOffline [0]).Serving 0 (askedRequest .takeOffline [0]) .takeOffline ∧
    (asked .takeOffline [0]).offered 0 = some (askedRequest .takeOffline [0]) ∧ (board.resource 0).state = .offline ∧
    (asked .clearFence [2]).Serving 0 (askedRequest .clearFence [2]) .clearFence ∧
    (board.resource 2).state ≠ .fenced ∧ (board.resource 2).fenceMark = false ∧
    (asked .setTimebase [0x10, 0x00]).Serving 0 (askedRequest .setTimebase [0x10, 0x00]) .setTimebase ∧
    (offering 0 0x17 [0x02] (opened.setSession 2 (Session.atReset 2))).Serving 0 (request 0x17 [0x02]) .evictClient ∧
    ((offering 0 0x17 [0x02] (opened.setSession 2 (Session.atReset 2))).session 2).isOpen = false := by
  refine ⟨serving_of ?_, ?_, ?_, serving_of ?_, serving_of ?_, ?_, ?_, serving_of ?_, ?_, ?_, serving_of ?_,
    serving_of ?_, ?_⟩ <;> decide +kernel

theorem witness_OpenSessionOpensOrReports :
    ((offering 2 0x01 [] State.reset).Serving 2 (request 0x01 []) .openSession ∧
      ((offering 2 0x01 [] State.reset).session 2).isOpen = false) ∧
    (asked .openSession []).Serving 0 (askedRequest .openSession []) .openSession ∧
      ((asked .openSession []).session 0).isOpen = true := by
  refine ⟨⟨serving_of ?_, ?_⟩, serving_of ?_, ?_⟩ <;> decide +kernel

theorem witness_SetThresholdSets :
    (asked .setThreshold [7]).Serving 0 (askedRequest .setThreshold [7]) .setThreshold ∧
    byteAt (askedRequest .setThreshold [7]).params 0 = natByte (7 : Fin 8).val := by
  refine ⟨serving_of ?_, ?_⟩ <;> decide +kernel

/-- Removing the one right there is, and giving a second client the right. -/
theorem witness_SetRightsKeepsAnAdmin :
    ((asked .setRights [0, 0]).Serving 0 (askedRequest .setRights [0, 0]) .setRights ∧
      ((asked .setRights [0, 0]).session 0).admin = true ∧
      ∀ d : Client, d ≠ 0 → ((asked .setRights [0, 0]).session d).admin = false) ∧
    (asked .setRights [3, 1]).Serving 0 (askedRequest .setRights [3, 1]) .setRights ∧
      byteAt (askedRequest .setRights [3, 1]).params 0 = natByte (3 : Client).val ∧
      byteAt (askedRequest .setRights [3, 1]).params 1 = yesNo true := by
  refine ⟨⟨serving_of ?_, ?_, ?_⟩, serving_of ?_, ?_, ?_⟩ <;> decide +kernel

/-- `board` meets the laws of the records. -/
theorem board_recordLaws : board.RecordLaws := by
  refine ⟨?_, ?_, ?_, ?_, ?_, ?_, [], [], ?_⟩ <;> decide +kernel

theorem witness_SessionEndLeavesNothing :
    ((asked .closeSession []).HoldersAgree ∧ (asked .closeSession []).QueuesAgree ∧ (asked .closeSession []).OneClaimLaw ∧
      (asked .closeSession []).CountLaw ∧ (asked .closeSession []).LineLaw) ∧
    (asked .closeSession []).Serving 0 (askedRequest .closeSession []) .closeSession ∧
    (asked .evictClient [2]).Serving 0 (askedRequest .evictClient [2]) .evictClient ∧
      ((asked .evictClient [2]).session 2).isOpen = true ∧
    ((board.setPort 2 { board.port 2 with offer := some .teardown }).port 2).offer = some .teardown := by
  refine ⟨⟨?_, ?_, ?_, ?_, ?_⟩, serving_of ?_, serving_of ?_, ?_, ?_⟩ <;> decide +kernel

/-- The same with no resource preemptible. -/
theorem witness_SessionEndLeavesNothing_quiet :
    (let s : State := { asked .closeSession [] with resources := board.resources.map fun x : Resource =>
        { x with config := { x.config with preemptible := false } } };
      s.HoldersAgree ∧ s.QueuesAgree ∧ s.OneClaimLaw ∧ s.CountLaw ∧ s.LineLaw ∧
      (∀ r : ResourceId, (s.resource r).config.preemptible = false) ∧ (s.session 0).leaseCount = 3) := by
  refine ⟨?_, ?_, ?_, ?_, ?_, ?_, ?_⟩ <;> decide +kernel

/-- On an IDLE resource, and beside a shared holder. -/
theorem witness_AcquireGrantsAtOnce :
    ((asked .acquire [1, 0, 0, 200, 0, 0, 1]).Serving 0 (askedRequest .acquire [1, 0, 0, 200, 0, 0, 1]) .acquire ∧
      acquireParams [1, 0, 0, 200, 0, 0, 1] = some ⟨1, .exclusive, 200, 0, 1⟩ ∧
      (asked .acquire [1, 0, 0, 200, 0, 0, 1]).admission 0 ⟨1, .exclusive, 200, 0, 1⟩ = none ∧
      (asked .acquire [1, 0, 0, 200, 0, 0, 1]).immediateAllowed ⟨1, .exclusive, 200, 0, 1⟩ = true ∧
      (asked .acquire [1, 0, 0, 200, 0, 0, 1]).freeLeaseSlot = some 7 ∧
      ((asked .acquire [1, 0, 0, 200, 0, 0, 1]).box 0).used < 16) ∧
    (let s := offering 0 0x04 [7, 1, 0, 0, 0, 0, 1] (board.setResource 7 { board.resource 7 with fenceMark := false });
      s.admission 0 ⟨7, .shared, 0, 0, 1⟩ = none ∧ s.immediateAllowed ⟨7, .shared, 0, 0, 1⟩ = true) := by
  refine ⟨⟨serving_of ?_, ?_, ?_, ?_, ?_, ?_⟩, ?_⟩ <;> decide +kernel

/-- The state with every lease slot in use, or every waiter slot. -/
def crowded (leases waiters : Bool) : State :=
  let s := if leases then { opened with leases := Vector.replicate 32 ⟨0, none, some ⟨11, 1, .exclusive, 0, .active, .expire, 0, 0⟩⟩ }
    else opened
  let s := if waiters then { s with waiters := Vector.replicate 24 ⟨0, none, some ⟨11, 1, .exclusive, 0, 0, 0⟩⟩ } else s
  online 2 .settling sharedConfig (online 1 .idle sharedConfig s)

/-- A state in which the client's notice entries are spoken for. -/
def noRoom (n : Nat) : State := (crowded false false).setBox 0 { NoticeBox.atReset with reservations := n }

/-- One request for each clause, in the statement's order. -/
theorem witness_AcquireRefusals :
    (asked .acquire [0, 1, 0, 0, 0, 0, 0]).admission 0 ⟨0, .shared, 0, 0, 0⟩ = some .badParam ∧
    (asked .acquire [1, 0, 0xEA, 0x61, 0, 0, 0]).admission 0 ⟨1, .exclusive, 60001, 0, 0⟩ = some .badParam ∧
    (let s := online 1 .idle { sharedConfig with allowed := 0b1110 } board;
      s.admission 0 ⟨1, .exclusive, 0, 0, 0⟩ = some .notAllowed) ∧
    board.admission 0 ⟨0, .exclusive, 0, 0, 0⟩ = some .offline ∧
    board.admission 0 ⟨4, .exclusive, 0, 0, 0⟩ = some .duplicate ∧
    ((crowded true false).admission 0 ⟨1, .exclusive, 0, 0, 0⟩ = none ∧
      (crowded true false).immediateAllowed ⟨1, .exclusive, 0, 0, 0⟩ = true ∧
      ∀ i : LeaseSlot, (crowded true false).lease i ≠ none) ∧
    ((noRoom 16).admission 0 ⟨1, .exclusive, 0, 0, 0⟩ = none ∧
      (noRoom 16).immediateAllowed ⟨1, .exclusive, 0, 0, 0⟩ = true ∧
      (noRoom 16).lease 0 = none ∧ 16 ≤ ((noRoom 16).box 0).used) ∧
    ((crowded false false).admission 0 ⟨2, .exclusive, 0, 0, 0⟩ = none ∧
      (crowded false false).immediateAllowed ⟨2, .exclusive, 0, 0, 0⟩ = false) ∧
    ((crowded false true).admission 0 ⟨2, .exclusive, 0, 5, 0⟩ = none ∧
      (crowded false true).immediateAllowed ⟨2, .exclusive, 0, 5, 0⟩ = false ∧
      ∀ j : WaiterSlot, (crowded false true).waiter j ≠ none) ∧
    ((noRoom 15).admission 0 ⟨2, .exclusive, 0, 5, 0⟩ = none ∧
      (noRoom 15).immediateAllowed ⟨2, .exclusive, 0, 5, 0⟩ = false ∧
      (noRoom 15).waiter 0 = none ∧ 14 < ((noRoom 15).box 0).used) := by decide +kernel

/-- The request of such a clause passes the common checks. -/
theorem witness_AcquireRefusals_serving :
    (offering 0 0x04 [2, 0, 0, 0, 0, 5, 0] (noRoom 15)).Serving 0 (request 0x04 [2, 0, 0, 0, 0, 5, 0]) .acquire ∧
    acquireParams [2, 0, 0, 0, 0, 5, 0] = some ⟨2, .exclusive, 0, 5, 0⟩ := by
  refine ⟨serving_of ?_, ?_⟩ <;> decide +kernel

/-- At the head of an empty queue (not preemptible), at the head of a preemptible resource's queue, and behind a waiter of
the same urgency. -/
theorem witness_AcquireQueues :
    (let s := offering 3 0x04 [9, 0, 0, 0, 1, 144, 3] board;
      s.offered 3 = some (request 0x04 [9, 0, 0, 0, 1, 144, 3]) ∧
      acquireParams [9, 0, 0, 0, 1, 144, 3] = some ⟨9, .exclusive, 0, 400, 3⟩ ∧
      s.admission 3 ⟨9, .exclusive, 0, 400, 3⟩ = none ∧ s.immediateAllowed ⟨9, .exclusive, 0, 400, 3⟩ = false ∧
      s.freeWaiterSlot = some 3 ∧ (s.box 3).used ≤ 14 ∧ s.QueuesAgree ∧ s.QueueOrder ∧
      (s.resource 9).config.preemptible = false) ∧
    (board.admission 3 ⟨2, .exclusive, 0, 400, 3⟩ = none ∧ board.immediateAllowed ⟨2, .exclusive, 0, 400, 3⟩ = false ∧
      (board.resource 2).queue = [] ∧ (board.resource 2).config.preemptible = true) ∧
    (board.admission 3 ⟨4, .shared, 0, 400, 1⟩ = none ∧
      (board.resource 4).queue.filter (fun k => (board.waiter k).any fun w => decide (1 ≤ w.urgency)) = [0]) := by
  decide +kernel

/-- A TERM configuration with a term above, at and below the warn lead, and a SLICED one. -/
theorem witness_TermsAndSlices :
    ResourceConfig.default.policy = .term ∧ slicedConfig.policy = .sliced ∧
    (0 < (10 : Half) ∧ (10 : Half) < 11) ∧ ¬ ((10 : Half) < 10) := by decide +kernel

/-- A handle of a lease in use, one behind with its end cause, one behind with none, and the same of a waiter. -/
theorem witness_HandlesResolve :
    (board.lease 0).isSome = true ∧ (board.leaseRecord 0).incarnation = 0 ∧
    ((after (.release 0) (offering 0 0x06 [0, 0] board)).leaseRecord 0).prevEnd = some .released ∧
    ((after (.release 0) (offering 0 0x06 [0, 0] board)).leaseRecord 0).incarnation = 0 + 1 ∧
    (State.reset.leaseRecord 5).prevEnd = none ∧
    (board.waiter 0).isSome = true ∧
    ((after (.cancel 0) (offering 0 0x08 [0, 0] board)).waiterRecord 0).prevOutcome = some .cancelled ∧
    ((after (.cancel 0) (offering 0 0x08 [0, 0] board)).waiterRecord 1).prevOutcome = some (.granted ⟨0, 7⟩) := by
  decide +kernel

/-- One request for each refusal of a handle or of a lease that does not fit. -/
theorem witness_HandleRequestsRefused :
    (asked .renew [0, 4, 0, 0]).Serving 0 (askedRequest .renew [0, 4, 0, 0]) .renew ∧
    board.resolveOwnLease 0 (handleAt 32 [0, 4, 0, 0] 0) = .valid 4 ⟨9, 0, .exclusive, 0, .active, .slice, 112, 12⟩ ∧
    board.resolveOwnLease 0 (handleAt 32 [0, 1, 0, 0] 0)
      = .valid 1 ⟨3, 0, .exclusive, 0, .recalling .revoked, .grace, 108, 0⟩ ∧
    board.resolveOwnLease 0 (handleAt 32 [0, 0, 0xEA, 0x61] 0) = .valid 0 ⟨2, 0, .exclusive, 0, .active, .expire, 300, 0⟩ ∧
    (board.resource 2).config.maxTerm < halfAt [0, 0, 0xEA, 0x61] 2 ∧
    board.resolveOwnLease 1 (handleAt 32 [0, 2] 0) = .valid 2 ⟨4, 1, .shared, 0, .active, .expire, 400, 0⟩ ∧
    (board.resource 9).config.sharing = .exclusiveOnly ∧
    board.resolveOwnLease 0 (handleAt 32 [0, 2] 0) = .bad ∧
    (after (.release 0) (offering 0 0x06 [0, 0] board)).resolveOwnLease 3 (handleAt 32 [0, 0] 0) = .gone .released ∧
    board.resolveLease (handleAt 32 [0, 31, 0] 0) = .bad ∧
    (after (.cancel 0) (offering 0 0x08 [0, 0] board)).resolveWaiter 3 (handleAt 24 [0, 0] 0) = .ended 0x03 ∧
    (after (.cancel 0) (offering 0 0x08 [0, 0] board)).resolveWaiter 3 (handleAt 24 [0, 1] 0) = .granted ⟨0, 7⟩ ∧
    board.resolveWaiter 3 (handleAt 24 [0, 0] 0) = .bad := by
  refine ⟨serving_of ?_, ?_, ?_, ?_, ?_, ?_, ?_, ?_, ?_, ?_, ?_, ?_, ?_⟩ <;> decide +kernel

/-- The term at its limit. -/
theorem witness_RenewFixesNewTerm :
    (asked .renew [0, 0, 0xEA, 0x60]).Serving 0 (askedRequest .renew [0, 0, 0xEA, 0x60]) .renew ∧
    (asked .renew [0, 0, 0xEA, 0x60]).resolveOwnLease 0 (handleAt 32 [0, 0, 0xEA, 0x60] 0)
      = .valid 0 ⟨2, 0, .exclusive, 0, .active, .expire, 300, 0⟩ ∧
    ((asked .renew [0, 0, 0xEA, 0x60]).resource 2).config.policy = .term ∧
    halfAt [0, 0, 0xEA, 0x60] 2 ≤ ((asked .renew [0, 0, 0xEA, 0x60]).resource 2).config.maxTerm := by
  refine ⟨serving_of ?_, ?_, ?_, ?_⟩ <;> decide +kernel

/-- The end of lease 0, ACTIVE, and of lease 1, RECALLING, set off nothing beyond themselves. -/
theorem endsAlone_of {s : State} {i : LeaseSlot} {l : Lease}
    (h : s.lease i = some l ∧ (s.resource l.resource).holders[l.holder] = some i ∧
      (s.resource l.resource).state = .held ∧ (s.resource l.resource).queue = [] ∧
      ∀ r : ResourceId, (s.resource r).starved = false) : s.EndsAlone i l :=
  ⟨h.1, h.2.1, .inl h.2.2.1, h.2.2.2.1, h.2.2.2.2⟩

theorem witness_LeasesEnd :
    ((asked .release [0, 0]).EndsAlone 0 ⟨2, 0, .exclusive, 0, .active, .expire, 300, 0⟩ ∧
      (asked .release [0, 0]).Serving 0 (askedRequest .release [0, 0]) .release ∧
      (asked .release [0, 0]).resolveOwnLease 0 (handleAt 32 [0, 0] 0)
        = .valid 0 ⟨2, 0, .exclusive, 0, .active, .expire, 300, 0⟩) ∧
    (owing ⟨.lease 1, some 0, .grace, 108⟩ board).EndsAlone 1 ⟨3, 0, .exclusive, 0, .recalling .revoked, .grace, 108, 0⟩ ∧
      (owing ⟨.lease 1, some 0, .grace, 108⟩ board).Current ⟨.lease 1, some 0, .grace, 108⟩ := by
  refine ⟨⟨endsAlone_of ?_, serving_of ?_, ?_⟩, endsAlone_of ?_,
    ⟨⟨3, 0, .exclusive, 0, .recalling .revoked, .grace, 108, 0⟩, ?_⟩⟩ <;> decide +kernel

theorem witness_DowngradeSharesTheLease :
    (asked .downgrade [0, 0]).Serving 0 (askedRequest .downgrade [0, 0]) .downgrade ∧
    (asked .downgrade [0, 0]).resolveOwnLease 0 (handleAt 32 [0, 0] 0)
      = .valid 0 ⟨2, 0, .exclusive, 0, .active, .expire, 300, 0⟩ ∧
    ((asked .downgrade [0, 0]).resource 2).config.sharing = .sharedAllowed ∧
    ((asked .downgrade [0, 0]).resource 2).queue = [] := by
  refine ⟨serving_of ?_, ?_, ?_, ?_⟩ <;> decide +kernel

/-- A waiter alone in its queue, and one behind the head. -/
theorem witness_WaitersEnd :
    ((asked .cancel [0, 2]).LeavesQuietly 2 ⟨10, 0, .exclusive, 0, 0, 500⟩ ∧
      (asked .cancel [0, 2]).Serving 0 (askedRequest .cancel [0, 2]) .cancel ∧
      (asked .cancel [0, 2]).resolveWaiter 0 (handleAt 24 [0, 2] 0) = .valid 2 ⟨10, 0, .exclusive, 0, 0, 500⟩) ∧
    (owing ⟨.waiter 1, some 0, .wait, 500⟩ board).LeavesQuietly 1 ⟨4, 2, .shared, 0, 0, 500⟩ ∧
      (owing ⟨.waiter 1, some 0, .wait, 500⟩ board).Current ⟨.waiter 1, some 0, .wait, 500⟩ := by
  refine ⟨⟨⟨?_, .inl ?_⟩, serving_of ?_, ?_⟩, ⟨?_, .inr ?_⟩, ⟨⟨4, 2, .shared, 0, 0, 500⟩, ?_⟩⟩ <;> decide +kernel

/-- A recall with grace, a cut of an ACTIVE lease and a cut of a RECALLING one. -/
theorem witness_RevokeRecallsOrCuts :
    ((asked .revoke [0, 2, 0]).Serving 0 (askedRequest .revoke [0, 2, 0]) .revoke ∧
      (asked .revoke [0, 2, 0]).resolveLease (handleAt 32 [0, 2, 0] 0)
        = .valid 2 ⟨4, 1, .shared, 0, .active, .expire, 400, 0⟩ ∧
      ((asked .revoke [0, 2, 0]).resource 4).config.grace ≠ 0) ∧
    ((asked .revoke [0, 0, 1]).Serving 0 (askedRequest .revoke [0, 0, 1]) .revoke ∧
      (asked .revoke [0, 0, 1]).EndsAlone 0 ⟨2, 0, .exclusive, 0, .active, .expire, 300, 0⟩) ∧
    (asked .revoke [0, 1, 1]).Serving 0 (askedRequest .revoke [0, 1, 1]) .revoke ∧
      (asked .revoke [0, 1, 1]).EndsAlone 1 ⟨3, 0, .exclusive, 0, .recalling .revoked, .grace, 108, 0⟩ := by
  refine ⟨⟨serving_of ?_, ?_, ?_⟩, ⟨serving_of ?_, endsAlone_of ?_⟩, serving_of ?_, endsAlone_of ?_⟩ <;> decide +kernel

theorem witness_RecallStep :
    board.lease 0 = some ⟨2, 0, .exclusive, 0, .active, .expire, 300, 0⟩ ∧
    board.lease 1 = some ⟨3, 0, .exclusive, 0, .recalling .revoked, .grace, 108, 0⟩ := by decide +kernel

/-- A step that takes a tick from the queue. -/
theorem step_tick (s : State) (h : s.pending = []) : step { s with pending := [.tick] } = .next (after .tick s) := by
  obtain ⟨_, _, _, _, _, _, _, _, _, _, _⟩ := s
  cases h
  rfl

/-- A RECALLING lease before and after a tick. -/
theorem witness_RecallingNeverReturns :
    board.PhaseLaw ∧ (board.lease 1).map Lease.state = some (.recalling .revoked) ∧
    step { board with pending := [.tick] } = .next (after .tick board) ∧ (after .tick board).lease 1 = board.lease 1 ∧
    ((after .tick board).leaseRecord 1).incarnation = (board.leaseRecord 1).incarnation :=
  ⟨by decide +kernel, by decide +kernel, step_tick board (by decide +kernel), by decide +kernel, by decide +kernel⟩

/-- B's lease of urgency 0 stands in the way of A's waiter of urgency 1. -/
theorem witness_PreemptionCheckSelects :
    (board.resource 4).queue = [0, 1] ∧ board.waiter 0 = some ⟨4, 0, .exclusive, 1, 0, 500⟩ ∧ board.HoldersAgree ∧
    board.preempted 4 = [2] := by decide +kernel

/-- A pass that grants one waiter and stops at the next for want of compatibility, and a resource that grants nothing. -/
theorem witness_GrantPassTakesAPrefix :
    (let s := board.setResource 4 { board.resource 4 with state := .idle, holders := Vector.replicate 4 none };
      s.QueuesAgree ∧ (s.resource 4).state = .idle ∧ (s.resource 4).fenceMark = false ∧
      ((doWork (.pass 4) s).1.resource 4).queue = [1] ∧ (doWork (.pass 4) s).2 = [.check 4]) ∧
    board.QueuesAgree ∧ (board.resource 5).state = .fenced := by decide +kernel

/-- A lease that stands and one that has left its holder set, a starved resource, a holder and the head of a queue. -/
theorem witness_WorkItemsTakeTheirSteps :
    (board.lease 0).isSome = true ∧ (board.resource 2).holders[(0 : Client)] = some 0 ∧ (board.resource 2).state = .held ∧
    (let s := (doWork (.endLease 0 .released) board).1;
      (s.lease 0).isSome = true ∧ (s.resource 2).holders[(0 : Client)] = none) ∧
    (let s := board.setResource 1 { board.resource 1 with starved := true };
      (s.resource 1).starved = true ∧ (s.resource 0).starved = false) ∧
    board.QueuesAgree ∧ board.OneClaimLaw ∧ board.waitsIn 4 0 0 ∧ (board.resource 4).queue.head? = some 0 := by
  refine ⟨?_, ?_, ?_, ⟨?_, ?_⟩, ⟨?_, ?_⟩, ?_, ?_, ⟨⟨4, 0, .exclusive, 1, 0, 500⟩, ?_⟩, ?_⟩ <;> decide +kernel

theorem witness_EngineWorkEnds : (resourceIds.map fun r => Work.endHolding r 0 .tornDown).length ≤ 12 := by decide +kernel

/-- A current WARN expiry with room, and with none. -/
theorem witness_WarnAndSliceExpiriesGoOn_warn :
    (owing ⟨.lease 6, some 0, .warn, 140⟩ board).Current ⟨.lease 6, some 0, .warn, 140⟩ ∧
    ((owing ⟨.lease 6, some 0, .warn, 140⟩ board).box 2).used < 16 ∧
    (let s := owing ⟨.lease 6, some 0, .warn, 140⟩ (board.setBox 2 { board.box 2 with reservations := 16 });
      s.Current ⟨.lease 6, some 0, .warn, 140⟩ ∧ 16 ≤ (s.box 2).used) := by
  refine ⟨⟨⟨11, 2, .exclusive, 0, .active, .warn, 140, 0⟩, ?_⟩, ?_,
    ⟨⟨11, 2, .exclusive, 0, .active, .warn, 140, 0⟩, ?_⟩, ?_⟩ <;> decide +kernel

/-- An EXPIRE with grace, an EXPIRE with grace 0, a SLICE with a waiter. -/
theorem witness_ExpiriesRecall :
    ((owing ⟨.lease 0, some 0, .expire, 300⟩ board).Current ⟨.lease 0, some 0, .expire, 300⟩ ∧
      ((owing ⟨.lease 0, some 0, .expire, 300⟩ board).resource 2).config.grace ≠ 0) ∧
    (let s := owing ⟨.lease 0, some 0, .expire, 300⟩ (online 2 .held { sharedConfig with grace := 0 } board);
      s.Current ⟨.lease 0, some 0, .expire, 300⟩ ∧ (s.resource 2).config.grace = 0 ∧
      s.EndsAlone 0 ⟨2, 0, .exclusive, 0, .active, .expire, 300, 0⟩) ∧
    ((owing ⟨.lease 5, some 0, .slice, 112⟩ board).Current ⟨.lease 5, some 0, .slice, 112⟩ ∧
      ((owing ⟨.lease 5, some 0, .slice, 112⟩ board).resource 10).queue ≠ []) := by
  refine ⟨⟨⟨⟨2, 0, .exclusive, 0, .active, .expire, 300, 0⟩, ?_⟩, ?_⟩,
    ⟨⟨⟨2, 0, .exclusive, 0, .active, .expire, 300, 0⟩, ?_⟩, ?_, endsAlone_of ?_⟩,
    ⟨⟨10, 1, .exclusive, 0, .active, .slice, 112, 4⟩, ?_⟩, ?_⟩ <;> decide +kernel

theorem witness_WarnAndSliceExpiriesGoOn_slice :
    (owing ⟨.lease 4, some 0, .slice, 112⟩ board).Current ⟨.lease 4, some 0, .slice, 112⟩ ∧
    (owing ⟨.lease 4, some 0, .slice, 112⟩ board).lease 4 = some ⟨9, 0, .exclusive, 0, .active, .slice, 112, 12⟩ ∧
    ((owing ⟨.lease 4, some 0, .slice, 112⟩ board).resource 9).queue = [] := by
  refine ⟨⟨⟨9, 0, .exclusive, 0, .active, .slice, 112, 12⟩, ?_⟩, ?_, ?_⟩ <;> decide +kernel

theorem witness_SettleExpiryIdles :
    (owing ⟨.resource 8, none, .settle, 120⟩ board).Current ⟨.resource 8, none, .settle, 120⟩ ∧
    ((owing ⟨.resource 8, none, .settle, 120⟩ board).resource 8).queue = [] := by
  refine ⟨⟨rfl, ?_, ?_⟩, ?_⟩ <;> decide +kernel

/-- An expiry of the incarnation before. -/
theorem witness_StaleExpiriesIgnored :
    (owing ⟨.lease 0, some 255, .expire, 300⟩ board).deadlines.owed = some ⟨.lease 0, some 255, .expire, 300⟩ ∧
    ¬ (owing ⟨.lease 0, some 255, .expire, 300⟩ board).Current ⟨.lease 0, some 255, .expire, 300⟩ := by
  refine ⟨by decide +kernel, fun h => ?_⟩
  obtain ⟨l, -, h, -⟩ := h
  exact absurd h (by decide +kernel)

/-- The requests of the first clauses, both ends of a fence, the ends of sessions, and expiries as in the witnesses above. -/
theorem witness_EventsRunTheirWork :
    (asked .release [0, 0]).Serving 0 (askedRequest .release [0, 0]) .release ∧
    (asked .downgrade [0, 0]).Serving 0 (askedRequest .downgrade [0, 0]) .downgrade ∧
    (asked .cancel [0, 0]).Serving 0 (askedRequest .cancel [0, 0]) .cancel ∧
    ((asked .cancel [0, 0]).resource 4).queue.head? = some 0 ∧
    (asked .revoke [0, 2, 1]).Serving 0 (askedRequest .revoke [0, 2, 1]) .revoke ∧
    (asked .closeSession []).Serving 0 (askedRequest .closeSession []) .closeSession ∧
    (asked .evictClient [2]).Serving 0 (askedRequest .evictClient [2]) .evictClient ∧
    (asked .clearFence [7]).Serving 0 (askedRequest .clearFence [7]) .clearFence ∧
    (board.resource 7).state = .held ∧ (board.resource 7).fenceMark = true ∧
    (asked .clearFence [5]).Serving 0 (askedRequest .clearFence [5]) .clearFence ∧
    (board.resource 5).state = .fenced ∧ (board.resource 5).config.settle = 0 ∧
    (owing ⟨.waiter 0, some 0, .wait, 500⟩ board).Current ⟨.waiter 0, some 0, .wait, 500⟩ := by
  refine ⟨serving_of ?_, serving_of ?_, serving_of ?_, ?_, serving_of ?_, serving_of ?_, serving_of ?_, serving_of ?_, ?_, ?_,
    serving_of ?_, ?_, ?_, ⟨⟨4, 0, .exclusive, 1, 0, 500⟩, ?_⟩⟩ <;> decide +kernel

/-- The head reached, just reached no more, and not yet reached. -/
theorem witness_ExpiryDeliveryTakesTheHead :
    ((140 : Tick) - 140).toNat < 2 ^ 31 ∧ ((140 : Tick) - 141).toNat ≥ 2 ^ 31 ∧
    ((0x7FFFFFFF : Tick) - 0).toNat < 2 ^ 31 ∧ ((0x80000000 : Tick) - 0).toNat ≥ 2 ^ 31 ∧
    board.deadlines.owed = none ∧ board.deadlines.entries.head? = some ⟨.lease 1, some 0, .grace, 108⟩ := by decide +kernel

theorem witness_ConfigureAndSetOnline_configure :
    (asked .configureResource (0 :: slicedConfig.bytes)).Serving 0
      (askedRequest .configureResource (0 :: slicedConfig.bytes)) .configureResource ∧
    configAt (0 :: slicedConfig.bytes) 1 = some slicedConfig ∧
    ((asked .configureResource (0 :: slicedConfig.bytes)).resource 0).state = .offline := by
  refine ⟨serving_of ?_, ?_, ?_⟩ <;> decide +kernel

theorem witness_ConfigRecordRoundTrip :
    slicedConfig.bytes.length = 14 ∧ configAt (slicedConfig.bytes ++ []) 0 = some slicedConfig ∧
    configAt [0x10, 1, 3, 232, 234, 96, 0, 100, 0, 0, 0, 10, 0, 15] 0 = none ∧
    configAt [0x00, 1, 3, 232, 234, 96, 0, 100, 0x10, 0, 0, 10, 0, 15] 0 = none ∧
    configAt [0x00, 1, 3, 232, 234, 96, 0, 100, 0, 0, 0, 10, 0, 0x1F] 0 = none := by decide +kernel

theorem witness_ConfigureAndSetOnline_online :
    (asked .setOnline [0]).Serving 0 (askedRequest .setOnline [0]) .setOnline ∧
    ((asked .setOnline [0]).resource 0).state = .offline := by
  refine ⟨serving_of ?_, ?_⟩ <;> decide +kernel

/-- IDLE, SETTLING and FENCED, the last with a waiter. -/
theorem witness_TakeOfflineWithoutLease :
    (asked .takeOffline [1]).Serving 0 (askedRequest .takeOffline [1]) .takeOffline ∧
    (board.resource 1).state = .idle ∧ (board.resource 8).state = .settling ∧
    (let s := board.enqueue 3 ⟨5, 3, .exclusive, 0, 0, 600⟩;
      (s.resource 5).state = .fenced ∧ (s.resource 5).queue = [3] ∧ s.QueuesAgree) := by
  refine ⟨serving_of ?_, ?_, ?_, ?_⟩ <;> decide +kernel

theorem witness_TakeOfflineDrains :
    (asked .takeOffline [4]).Serving 0 (askedRequest .takeOffline [4]) .takeOffline ∧
    ((asked .takeOffline [4]).resource 4).state = .held ∧ ((asked .takeOffline [4]).resource 4).config.grace ≠ 0 ∧
    (asked .takeOffline [4]).QueuesAgree ∧ (asked .takeOffline [4]).HoldersAgree ∧
    (let s := online 4 .held { sharedConfig with grace := 0 } (asked .takeOffline [4]);
      (s.resource 4).config.grace = 0 ∧ s.QueuesAgree ∧ s.HoldersAgree) := by
  refine ⟨serving_of ?_, ?_, ?_, ?_, ?_, ?_⟩ <;> decide +kernel

/-- FENCED with settle 3, FENCED with settle 0, HELD with the mark set. -/
theorem witness_ClearFenceEndsTheFence :
    (asked .clearFence [6]).Serving 0 (askedRequest .clearFence [6]) .clearFence ∧
    ((board.resource 6).state = .fenced ∧ (board.resource 6).config.settle ≠ 0) ∧
    ((board.resource 5).state = .fenced ∧ (board.resource 5).config.settle = 0 ∧ (board.resource 5).queue = []) ∧
    (board.resource 7).state = .held ∧ (board.resource 7).fenceMark = true ∧ (board.resource 7).queue = [] := by
  refine ⟨serving_of ?_, ?_, ?_, ?_, ?_, ?_⟩ <;> decide +kernel

/-- The largest divisor. -/
theorem witness_SetTimebaseReplacesTheDivisor :
    (offering 0 0x15 [0x10, 0x00] opened).Serving 0 (request 0x15 [0x10, 0x00]) .setTimebase ∧
    (halfAt [0x10, 0x00] 0).toNat = 4096 ∧
    ∀ r : ResourceId, ((offering 0 0x15 [0x10, 0x00] opened).resource r).state = .offline := by
  refine ⟨serving_of ?_, ?_, ?_⟩ <;> decide +kernel

/-- The boundary values of both bounds. -/
theorem witness_TicksAcrossTheWrap : 2 ^ 31 ≤ 2 ^ 31 ∧ (2 ^ 32 - 1 : Nat) < 2 ^ 31 + 2 ^ 31 ∧ (2 ^ 31 - 1 : Nat) < 2 ^ 31 + 0 := by
  decide +kernel

theorem witness_DeadlineListStaysInDueOrder :
    (board.DueOrder ∧ ∀ x ∈ (⟨.lease 0, some 0, .expire, 500⟩ : Entry) :: board.deadlines.entries,
      (x.due - 100).toNat < 2 ^ 31) ∧
    board.DueWithin 100 ∧ step { board with pending := [.tick] } = .next (after .tick board) :=
  ⟨by decide +kernel, by decide +kernel, step_tick board (by decide +kernel)⟩

theorem witness_QueriesReadOnly :
    (asked .queryLease [0, 4]).Serving 0 (askedRequest .queryLease [0, 4]) .queryLease ∧
    (asked .queryLease [0, 4]).resolveOwnLease 0 (handleAt 32 [0, 4] 0)
      = .valid 4 ⟨9, 0, .exclusive, 0, .active, .slice, 112, 12⟩ ∧
    (asked .queryResource [11]).Serving 0 (askedRequest .queryResource [11]) .queryResource ∧
    (asked .queryDevice []).Serving 0 (askedRequest .queryDevice []) .queryDevice := by
  refine ⟨serving_of ?_, ?_, serving_of ?_, serving_of ?_⟩ <;> decide +kernel

/-- R76 and section 9.7: the entry of A's RECALLING lease holds its reason; its bytes have bit 3 set and bits 4 to 7 clear. -/
theorem test_holder_entry : board.holderEntries 3 = [⟨0, .exclusive, .recalling .revoked, 8⟩] ∧
    (board.holderEntries 3).flatMap HolderEntry.bytes = [0x08, 0, 0, 0, 8] := by decide +kernel

/-- A SETTLING resource, one without a queue and one with a head. -/
theorem witness_ResourceViewLayout : board.HoldersAgree ∧ board.QueuesAgree ∧ (board.resource 8).state = .settling ∧
    (board.resource 8).settleDeadline = some 120 ∧ (board.resource 2).queue = [] ∧
    (board.resource 4).queue = 0 :: [1] ∧ (board.waiter 0).isSome = true := by
  refine ⟨?_, ?_, ?_, ?_, ?_, ?_, ?_⟩ <;> decide +kernel

/-- A client with a reservation, and one whose head notice has sequence number 0. -/
theorem witness_NoticeUnitCommands : 1 ≤ (board.box 0).reservations ∧
    (((board.setBox 0 ((board.box 0).append 100 (.waitEnded ⟨3, 9⟩ 7 .timedOut))).box 0).queue.map Notice.seq)
      = (board.box 0).seq :: [] := by decide +kernel

/-- A port that is not held, and frames for the cases of R150 and R151. -/
theorem witness_PutFrameIsJudged :
    board.portHeld 0 = false ∧ 16 < (0x11 : Byte).toNat ∧ (0x10 : Byte).toNat ≤ 16 ∧
    crc8 ([0x01, 0x00, 0x00] ++ []) = 0x6B ∧ (board.port 0).buffer.length < 4 := by decide +kernel

/-- Each acknowledge flag that is known, and one that is not. -/
theorem witness_TakesAcknowledgeAndPeek : board.portHeld 0 = false ∧
    (0x02 : Byte) ≠ 0x00 ∧ (0x02 : Byte) ≠ 0x01 := by decide +kernel

theorem witness_StatusByteGoesOut : board.portHeld 0 = false := by decide +kernel

/-- A port held by its PCLR_N, and one that is not; a selecting byte and an acknowledge flag of no known value. -/
theorem witness_CutAndHeldTransactions : (board.setPclr 0 true).portHeld 0 = true ∧ board.portHeld 0 = false ∧
    knownSelector 0x00 = false ∧ (0x02 : Byte) ≠ 0x00 ∧ (0x02 : Byte) ≠ 0x01 := by decide +kernel

/-- A port with a request in service and an answer of its generation, and of the one before. -/
theorem witness_PlaceAnswerPlacesOrDiscards :
    ((after (.queryDevice 0) (asked .queryDevice [])).port 0).inFlight.map AnswerInFlight.stamp = [0] ∧
    ((after (.queryDevice 0) (asked .queryDevice [])).port 0).buffer = [] ++ .request (askedRequest .queryDevice []) true :: [] ∧
    ((after (.queryDevice 0) (asked .queryDevice [])).port 0).generation = 0 ∧
    ((after (.portReset 0) (after (.queryDevice 0) (asked .queryDevice []))).port 0).generation = 1 := by decide +kernel

/-- A withdrawn request, and an offer of another generation. -/
theorem witness_OffersFollowTheirOrder :
    ((after (.portReset 0) (asked .queryDevice [])).port 0).withdrawn = some (askedRequest .queryDevice []) ∧
    ((after (.portReset 0) (asked .queryDevice [])).port 0).owedTeardowns = 1 ∧
    ((asked .queryDevice []).port 0).offer = some (.request (askedRequest .queryDevice [])) ∧
    (askedRequest .queryDevice []).stamp ≠ 1 := by decide +kernel

/-- An assertion, one of a line already asserted, one while RESET_N is held, and a request withdrawn by the reset before. -/
theorem witness_PortResetEmptiesThePort :
    (board.resetHeld = false ∧ (board.port 0).pclr = false) ∧ ((board.setPclr 0 true).port 0).pclr = true ∧
    (after .deviceReset board).resetHeld = true ∧
    ((after (.pclrDeasserted 0) (after (.portReset 0) (asked .queryDevice []))).port 0).withdrawn
      = some (askedRequest .queryDevice []) := by decide +kernel

theorem witness_ClaimsThatChangeNothing :
    ((after (.portReset 2) State.reset).port 2).offer = some .teardown ∧
    ((after (.portReset 2) State.reset).session 2).isOpen = false ∧
    (board.port 0).offer ≠ some .teardown ∧ board.offered 0 = none ∧ board.deadlines.owed = none ∧
    (board.port 0).inFlight = [] := by decide +kernel

/-- No PCLR_N asserted; RESET_N held, with a PCLR_N asserted too. -/
theorem witness_DeviceResetRestoresEverything : (∀ p : Client, (board.port p).pclr = false) ∧
    (after .deviceReset board).resetHeld = true ∧ (after .deviceReset (board.setPclr 1 true)).resetHeld = true ∧
    ((after .deviceReset (board.setPclr 1 true)).port 1).pclr = true ∧ board.resetHeld = false := by decide +kernel

theorem witness_StepKeepsRecordLaws : board.RecordLaws := board_recordLaws

theorem witness_ConfigurationFixedWhileOnline : (board.resource 1).state ≠ .offline := by decide +kernel

/-- With a notice above the threshold, so that ATTN_N is asserted. -/
theorem witness_StepKeepsBlockLaws :
    (let s := board.setBox 0 ((board.box 0).append 100 (.waitEnded ⟨3, 9⟩ 7 .timedOut));
      s.BlockLaws ∧ s.attnAsserted 0 = true) := by
  refine ⟨⟨?_, ?_, ?_, ?_, ?_, ?_, ?_, ?_⟩, ?_⟩ <;> decide +kernel

theorem witness_StepKeepsNoticeLaws : board.NoticeLaws := by
  refine ⟨board_recordLaws, ?_, ?_, ?_⟩ <;> decide +kernel

/-- R5, state by state. -/
theorem resourceLaw_of {s : State} (h : ∀ r : ResourceId,
    ((s.resource r).state ≠ .held → (s.resource r).state ≠ .draining → (s.resource r).holderCount = 0) ∧
    ((s.resource r).state = .offline → (s.resource r).queue = []) ∧ (s.resource r).state ≠ .draining ∧
    ((s.resource r).state = .held →
      1 ≤ (s.resource r).holderCount ∧ (s.resource r).holderCount ≤ (s.resource r).config.maxShared)) :
    s.ResourceLaw := by
  intro r
  obtain ⟨h1, h2, h3, h4⟩ := h r
  split <;> simp_all

theorem witness_StepKeepsResourceLaws : board.ResourceLaws := by
  refine ⟨board_recordLaws, resourceLaw_of ?_, ?_, ?_, ?_, ?_, ?_, ?_⟩ <;> decide +kernel

/-- `board` at tick 108, the GRACE expiry of lease 1 owed. -/
def late : State := owing ⟨.lease 1, some 0, .grace, 108⟩ (board.setTimeBase ⟨1000, 0, 108⟩)

/-- Every owner's entry stands in the list, but for the one that is owed. -/
theorem witness_StepKeepsDeadlineLaws : late.DeadlineLaws ∧ late.ConfigLaw ∧ late.OwedReached := by
  refine ⟨⟨⟨?_, ?_, ?_, ?_, ?_, ?_⟩, ⟨by decide +kernel, fun o e h => ?_⟩, ?_, ?_, ?_, ?_⟩, ?_, ?_⟩
  case refine_6 => exact ⟨rfl, [], [], rfl⟩
  case refine_9 =>
    intro e he _
    cases he
    decide +kernel
  case refine_7 =>
    revert e
    cases o with
    | lease i => revert i; decide +kernel
    | waiter j => revert j; decide +kernel
    | resource r => revert r; decide +kernel
  all_goals decide +kernel

end Sys2Proof.Tests
end

section
/-!
SUPPORT. What the engine's own writes read as afterwards, one lemma for each reading: the beginning and the freeing of a
lease, the joining and the freeing of a waiter, a grant; and how one slot or one holder more changes a count.
-/

namespace Sys2Proof.Machine

/-! ### Counting one more -/

/-- Two tests that differ in one element of a list without repetitions count one apart. -/
theorem countP_eq_succ {α : Type} {l : List α} {f g : α → Bool} {a : α} (hl : l.Nodup) (ha : a ∈ l)
    (hf : f a = true) (hg : g a = false) (h : ∀ b, b ≠ a → f b = g b) : l.countP f = l.countP g + 1 := by
  induction l with
  | nil => simp at ha
  | cons b l ih =>
    obtain ⟨hb, hl⟩ := List.nodup_cons.1 hl
    by_cases hba : b = a
    · subst hba
      have : l.countP f = l.countP g := List.countP_congr fun c hc => by rw [h c fun e => hb (e ▸ hc)]
      simp [hf, hg, this]
    · have := ih hl ((List.mem_cons.1 ha).resolve_left (Ne.symm hba))
      rw [List.countP_cons, List.countP_cons, this, h b hba]
      omega

theorem mem_leaseSlots (i : LeaseSlot) : i ∈ leaseSlots := List.mem_finRange i
theorem mem_waiterSlots (j : WaiterSlot) : j ∈ waiterSlots := List.mem_finRange j
theorem leaseSlots_nodup : leaseSlots.Nodup := List.nodup_finRange 32
theorem waiterSlots_nodup : waiterSlots.Nodup := List.nodup_finRange 24
theorem clients_nodup : clients.Nodup := by decide
theorem mem_resourceIds (r : ResourceId) : r ∈ resourceIds := by revert r; decide
theorem resourceIds_nodup : resourceIds.Nodup := by decide

/-! ### The holder count -/

/-- The slot of client `c`'s lease on the resource, if it has one (R5). -/
def Resource.holder (x : Resource) (c : Client) : Option LeaseSlot := x.holders[c]

theorem Resource.holders_get (x : Resource) (c : Client) : x.holders[c] = x.holder c := rfl

theorem Resource.holder_congr {x y : Resource} (h : y.holders = x.holders) (c : Client) : y.holder c = x.holder c := by
  simp only [Resource.holder, h]

theorem Resource.holder_set {x y : Resource} {c : Client} {o : Option LeaseSlot} (h : y.holders = x.holders.set c o)
    (d : Client) : y.holder d = if d = c then o else x.holder d := by
  by_cases hd : d = c
  · subst hd; simp [Resource.holder, h]
  · have : ¬ c.val = d.val := fun e => hd (Fin.ext e.symm)
    simp [Resource.holder, h, hd, this]

theorem Resource.holderCount_eq_countP (x : Resource) : x.holderCount = clients.countP fun c => (x.holder c).isSome := by
  simp only [Resource.holderCount, Resource.holderList, List.length_filterMap_eq_countP, Option.isSome_map,
    Resource.holders_get]

theorem Resource.holderCount_congr {x y : Resource} (h : y.holders = x.holders) : y.holderCount = x.holderCount := by
  simp only [Resource.holderCount, Resource.holderList, h]

/-- A holder that joins is one more. -/
theorem Resource.holderCount_set_some {x y : Resource} {c : Client} {i : LeaseSlot}
    (hy : y.holders = x.holders.set c (some i)) (hx : x.holder c = none) : y.holderCount = x.holderCount + 1 := by
  simp only [Resource.holderCount_eq_countP, Resource.holder_set hy]
  refine countP_eq_succ clients_nodup (mem_clients c) (by simp) (by simp [hx]) fun d hd => ?_
  simp [hd]

/-- A holder that leaves is one fewer. -/
theorem Resource.holderCount_set_none {x y : Resource} {c : Client} {i : LeaseSlot}
    (hy : y.holders = x.holders.set c none) (hx : x.holder c = some i) : x.holderCount = y.holderCount + 1 := by
  simp only [Resource.holderCount_eq_countP, Resource.holder_set hy]
  refine countP_eq_succ clients_nodup (mem_clients c) (by simp [hx]) (by simp) fun d hd => ?_
  simp [hd]

theorem Resource.holderCount_eq_zero {x : Resource} : x.holderCount = 0 ↔ ∀ c : Client, x.holder c = none := by
  rw [Resource.holderCount_eq_countP, List.countP_eq_zero]
  simp [mem_clients]

/-! ### After the beginning of a lease (R8, R26, R35, R63) -/

section
variable (s : State) (i : LeaseSlot) (r : ResourceId) (c : Client) (m : Mode) (u : Urgency) (iv : Interval)

@[simp] theorem State.beginLease_leaseRecord (k : LeaseSlot) : (s.beginLease i r c m u iv).leaseRecord k
    = if k = i then { s.leaseRecord i with lease := some ⟨r, c, m, u, .active, iv.phase, iv.deadline, iv.trim⟩ }
      else s.leaseRecord k := by
  simp [State.beginLease, State.setLease_leaseRecord]

@[simp] theorem State.beginLease_lease (k : LeaseSlot) : (s.beginLease i r c m u iv).lease k
    = if k = i then some ⟨r, c, m, u, .active, iv.phase, iv.deadline, iv.trim⟩ else s.lease k := by
  by_cases h : k = i <;> simp [State.lease, h]

@[simp] theorem State.beginLease_resource (k : ResourceId) : (s.beginLease i r c m u iv).resource k
    = if k = r then { s.resource r with
        holders := (s.resource r).holders.set c (some i)
        state := if (s.resource r).state = .idle then .held else (s.resource r).state } else s.resource k :=
  State.setResource_resource _ r k _

@[simp] theorem State.beginLease_waiterRecord (k : WaiterSlot) :
    (s.beginLease i r c m u iv).waiterRecord k = s.waiterRecord k := rfl

@[simp] theorem State.beginLease_waiter (k : WaiterSlot) : (s.beginLease i r c m u iv).waiter k = s.waiter k := rfl

@[simp] theorem State.beginLease_session (d : Client) : (s.beginLease i r c m u iv).session d
    = if d = c then (s.session c).gainLease else s.session d := by
  simp [State.beginLease, State.setSession_session]

@[simp] theorem State.beginLease_gate : (s.beginLease i r c m u iv).gate
    = ⟨s.gate.lines, s.gate.held ++ [⟨r, c⟩], s.gate.driven⟩ := rfl

@[simp] theorem State.beginLease_now : (s.beginLease i r c m u iv).now = s.now := rfl

end

/-! ### After the freeing of a waiter (R56) -/

section
variable (s : State) (j : WaiterSlot) (o : Outcome)

theorem State.freeWaiter_of_none {s : State} {j : WaiterSlot} (h : s.waiter j = none) (o : Outcome) :
    s.freeWaiter j o = s := by
  simp [State.freeWaiter, h]

@[simp] theorem State.freeWaiter_leaseRecord (k : LeaseSlot) : (s.freeWaiter j o).leaseRecord k = s.leaseRecord k := by
  unfold State.freeWaiter; split <;> rfl

@[simp] theorem State.freeWaiter_lease (k : LeaseSlot) : (s.freeWaiter j o).lease k = s.lease k := by
  simp [State.lease]

@[simp] theorem State.freeWaiter_gate : (s.freeWaiter j o).gate = s.gate := by
  unfold State.freeWaiter; split <;> rfl

@[simp] theorem State.freeWaiter_now : (s.freeWaiter j o).now = s.now := by
  unfold State.freeWaiter; split <;> rfl

theorem State.freeWaiter_waiterRecord {w : Waiter} (h : s.waiter j = some w) (k : WaiterSlot) :
    (s.freeWaiter j o).waiterRecord k
      = if k = j then ⟨(s.waiterRecord j).incarnation + 1, some o, none⟩ else s.waiterRecord k := by
  simp [State.freeWaiter_eq o h, State.setWaiterRecord_waiterRecord]

@[simp] theorem State.freeWaiter_waiter (k : WaiterSlot) :
    (s.freeWaiter j o).waiter k = if k = j then none else s.waiter k := by
  cases h : s.waiter j with
  | none =>
    rw [State.freeWaiter_of_none h]
    split
    · simp_all
    · rfl
  | some w => by_cases hk : k = j <;> simp [State.waiter, State.freeWaiter_waiterRecord s j o h, hk]

theorem State.freeWaiter_resource {w : Waiter} (h : s.waiter j = some w) (r : ResourceId) :
    (s.freeWaiter j o).resource r = if r = w.resource then { s.resource r with
      queue := (s.resource r).queue.filter fun k => !decide (k = j) } else s.resource r := by
  rw [State.freeWaiter_eq o h]
  by_cases hr : r = w.resource <;> simp [State.setResource_resource, hr]

/-- The freeing of a waiter reaches a resource's queue at most. -/
theorem State.freeWaiter_resource_cases (r : ResourceId) : (s.freeWaiter j o).resource r = s.resource r ∨
    (s.freeWaiter j o).resource r
      = { s.resource r with queue := (s.resource r).queue.filter fun k => !decide (k = j) } := by
  cases h : s.waiter j with
  | none => exact .inl (by rw [State.freeWaiter_of_none h])
  | some w =>
    rw [State.freeWaiter_resource s j o h]
    split
    · exact .inr rfl
    · exact .inl rfl

@[simp] theorem State.freeWaiter_holders (r : ResourceId) :
    ((s.freeWaiter j o).resource r).holders = (s.resource r).holders := by
  rcases s.freeWaiter_resource_cases j o r with h | h <;> rw [h]

theorem State.freeWaiter_session {w : Waiter} (h : s.waiter j = some w) (c : Client) :
    (s.freeWaiter j o).session c = if c = w.client then (s.session c).loseWaiter else s.session c := by
  rw [State.freeWaiter_eq o h]
  by_cases hc : c = w.client <;> simp [State.setSession_session, hc]

end

/-! ### After a new waiter has joined (R59) -/

section
variable (s : State) (j : WaiterSlot) (w : Waiter)

@[simp] theorem State.enqueue_leaseRecord (k : LeaseSlot) : (s.enqueue j w).leaseRecord k = s.leaseRecord k := rfl
@[simp] theorem State.enqueue_lease (k : LeaseSlot) : (s.enqueue j w).lease k = s.lease k := rfl
@[simp] theorem State.enqueue_gate : (s.enqueue j w).gate = s.gate := rfl
@[simp] theorem State.enqueue_now : (s.enqueue j w).now = s.now := rfl

@[simp] theorem State.enqueue_waiter (k : WaiterSlot) :
    (s.enqueue j w).waiter k = if k = j then some w else s.waiter k := by
  simp [State.enqueue, State.setWaiterRecord_waiter]

@[simp] theorem State.enqueue_session (c : Client) :
    (s.enqueue j w).session c = if c = w.client then (s.session c).gainWaiter else s.session c := by
  by_cases hc : c = w.client <;> simp [State.enqueue, State.setSession_session, hc]

/-- Where the other waiters of the queue stand in other slots, the new one takes its place by their urgencies. -/
theorem State.enqueue_resource (hj : j ∉ (s.resource w.resource).queue) (r : ResourceId) :
    (s.enqueue j w).resource r = if r = w.resource then { s.resource r with
      queue := (s.resource r).queue.insertIdx (s.enqueuePosition (s.resource r).queue w.urgency) j }
      else s.resource r := by
  have same : ∀ t : State, (∀ k, k ≠ j → t.waiter k = s.waiter k) →
      t.enqueuePosition (s.resource w.resource).queue w.urgency
        = s.enqueuePosition (s.resource w.resource).queue w.urgency := by
    intro t ht
    unfold State.enqueuePosition
    have : ∀ l : List WaiterSlot, j ∉ l →
        (l.takeWhile fun i => (t.waiter i).any fun v => decide (v.urgency < w.urgency))
          = l.takeWhile fun i => (s.waiter i).any fun v => decide (v.urgency < w.urgency) := by
      intro l hl
      induction l with
      | nil => rfl
      | cons a l ih =>
        obtain ⟨ha, hl⟩ := not_or.1 (mt List.mem_cons.2 hl)
        simp only [List.takeWhile_cons, ht a (Ne.symm ha), ih hl]
    rw [this _ (by simpa using hj)]
  by_cases hr : r = w.resource
  · subst hr
    simp only [State.enqueue, State.setSession_resource, State.setResource_resource_self, State.arm_resource,
      State.setBox_resource, State.setWaiterRecord_resource, if_true]
    rw [same _ fun k hk => by simp [State.setWaiterRecord_waiter, hk]]
  · simp [State.enqueue, State.setResource_resource, hr]

end

/-! ### After the freeing of a lease (R27) -/

section
variable (s : State) (i : LeaseSlot) (cause : EndCause)

/-- Where slot `i` is free or its lease still stands in a holder set, nothing is freed. -/
theorem State.freeLease_of_standing {s : State} {i : LeaseSlot} (h : ∀ l, s.lease i = some l → s.stands i l = true) :
    s.freeLease i cause = s := by
  unfold State.freeLease
  split
  · rfl
  · rw [if_pos (h _ ‹_›)]

@[simp] theorem State.freeLease_waiterRecord (k : WaiterSlot) :
    (s.freeLease i cause).waiterRecord k = s.waiterRecord k := by
  unfold State.freeLease
  split
  · rfl
  · split
    · rfl
    · split <;> rfl

@[simp] theorem State.freeLease_waiter (k : WaiterSlot) : (s.freeLease i cause).waiter k = s.waiter k := by
  simp [State.waiter]

@[simp] theorem State.freeLease_gate : (s.freeLease i cause).gate = s.gate := by
  unfold State.freeLease
  split
  · rfl
  · split
    · rfl
    · split <;> rfl

variable {s i} {l : Lease}

theorem State.freeLease_leaseRecord (h1 : s.lease i = some l) (h2 : s.stands i l = false) (k : LeaseSlot) :
    (s.freeLease i cause).leaseRecord k
      = if k = i then ⟨(s.leaseRecord i).incarnation + 1, some cause, none⟩ else s.leaseRecord k := by
  simp [State.freeLease_eq cause h1 h2, State.setLeaseRecord_leaseRecord]

theorem State.freeLease_lease (h1 : s.lease i = some l) (h2 : s.stands i l = false) (k : LeaseSlot) :
    (s.freeLease i cause).lease k = if k = i then none else s.lease k := by
  by_cases hk : k = i <;> simp [State.lease, State.freeLease_leaseRecord cause h1 h2, hk]

theorem State.freeLease_session (h1 : s.lease i = some l) (h2 : s.stands i l = false) (c : Client) :
    (s.freeLease i cause).session c = if c = l.holder then (s.session c).loseLease else s.session c := by
  rw [State.freeLease_eq cause h1 h2]
  by_cases hc : c = l.holder <;> simp [State.setSession_session, hc]

/-- A slot that is free stays free, and a lease that is left is the one that was there. -/
theorem State.lease_of_freeLease {k : LeaseSlot} {l' : Lease} (h : (s.freeLease i cause).lease k = some l') :
    s.lease k = some l' := by
  cases h1 : s.lease i with
  | none => rwa [State.freeLease_of_standing cause (by simp [h1])] at h
  | some l =>
    cases h2 : s.stands i l with
    | true => rwa [State.freeLease_of_standing cause (by simpa [h1] using h2)] at h
    | false =>
      rw [State.freeLease_lease cause h1 h2] at h
      split at h
      · cases h
      · exact h

end

theorem State.stands_iff {s : State} {i : LeaseSlot} {l : Lease} :
    s.stands i l = true ↔ (s.resource l.resource).holder l.holder = some i := by
  simp [State.stands, Resource.holder]

theorem State.stands_eq_false {s : State} {i : LeaseSlot} {l : Lease} :
    s.stands i l = false ↔ (s.resource l.resource).holder l.holder ≠ some i := by
  simp [State.stands, Resource.holder]

end Sys2Proof.Machine
end

section
/-!
SUPPORT. The work of one event comes to its end: every item of work is paid for by what it costs or by the holders and the
waiters it uses up (assumption log 8), so that an event of at most twelve items never runs out of fuel, and an invariant of
the items holds with nothing left to do.
-/

namespace Sys2Proof.Machine

/-! ### What an item costs -/

/-- The most items that one item comes to, those not counted that a lease's end or a grant pays for. -/
def Work.cost : Work → Nat
  | .pass _ => 1
  | .check _ => 9
  | .recallLease .. => 2
  | .endLease .. => 1
  | .freeSlot .. => 1
  | .starvedFrom index => 1 + 2 * (12 - index)
  | .endHolding .. => 2
  | .removeWaiting .. => 11

/-- The holders of all resources together. -/
def State.allHolders (s : State) : Nat := (resourceIds.map fun r => (s.resource r).holderCount).sum

/-- The waiters of the pool that are in use. -/
def State.allWaiters (s : State) : Nat := waiterSlots.countP fun j => (s.waiter j).isSome

/-- What the holders and the waiters of a state pay for: the end of a lease sets off 27 items at most, and a grant makes a
holder of a waiter and sets off one preemption check. -/
def State.credit (s : State) : Nat := 27 * s.allHolders + 36 * s.allWaiters

/-- An upper bound of the items that a list comes to. -/
def workBound (work : List Work) (s : State) : Nat := (work.map Work.cost).sum + s.credit

theorem Work.cost_le (w : Work) : w.cost ≤ 25 := by cases w <;> simp only [Work.cost] <;> omega

theorem cost_sum_le (work : List Work) : (work.map Work.cost).sum ≤ 25 * work.length := by
  induction work with
  | nil => simp
  | cons w work ih => have := w.cost_le; simp only [List.map_cons, List.sum_cons, List.length_cons]; omega

theorem State.allHolders_le (s : State) : s.allHolders ≤ 48 := by
  have h := fun r => (s.resource r).holderCount_le
  simp only [State.allHolders, resourceIds, List.map_cons, List.map_nil, List.sum_cons, List.sum_nil]
  have := h 0; have := h 1; have := h 2; have := h 3; have := h 4; have := h 5
  have := h 6; have := h 7; have := h 8; have := h 9; have := h 10; have := h 11
  omega

theorem State.allWaiters_le (s : State) : s.allWaiters ≤ 24 := List.countP_le_length.trans (by simp [waiterSlots])

/-- An event of at most twelve items is far within the fuel. -/
theorem workBound_le {work : List Work} (h : work.length ≤ 12) (s : State) : workBound work s ≤ engineFuel := by
  have h1 := cost_sum_le work
  have h2 := s.allHolders_le
  have h3 := s.allWaiters_le
  simp only [workBound, State.credit, engineFuel]
  omega

/-! ### Holders and waiters after a write -/

theorem State.allHolders_congr {s t : State} (h : ∀ r, (t.resource r).holders = (s.resource r).holders) :
    t.allHolders = s.allHolders := by
  simp only [State.allHolders, fun r => Resource.holderCount_congr (h r)]

/-- Where one resource has one holder more than before and the others as many, all have one more. -/
theorem State.allHolders_succ {s t : State} {r : ResourceId}
    (h : (t.resource r).holderCount = (s.resource r).holderCount + 1)
    (others : ∀ k, k ≠ r → (t.resource k).holderCount = (s.resource k).holderCount) :
    t.allHolders = s.allHolders + 1 := by
  have key : ∀ l : List ResourceId, l.Nodup →
      (l.map fun k => (t.resource k).holderCount).sum
        = (l.map fun k => (s.resource k).holderCount).sum + if r ∈ l then 1 else 0 := by
    intro l hl
    induction l with
    | nil => simp
    | cons k l ih =>
      obtain ⟨hk, hl⟩ := List.nodup_cons.1 hl
      simp only [List.map_cons, List.sum_cons, ih hl]
      by_cases hkr : k = r
      · subst hkr; simp [hk, h]; omega
      · simp [others k hkr, Ne.symm hkr]; omega
  have h1 := key resourceIds resourceIds_nodup
  rwa [if_pos (mem_resourceIds r)] at h1

theorem State.allWaiters_congr {s t : State} (h : ∀ j, t.waiter j = s.waiter j) : t.allWaiters = s.allWaiters := by
  simp only [State.allWaiters, h]

theorem State.allWaiters_freeWaiter {s : State} {j : WaiterSlot} {w : Waiter} (h : s.waiter j = some w) (o : Outcome) :
    s.allWaiters = (s.freeWaiter j o).allWaiters + 1 := by
  refine countP_eq_succ waiterSlots_nodup (mem_waiterSlots j) (by simp [h]) (by simp) fun k hk => ?_
  simp [hk]

theorem State.allWaiters_freeWaiter_le (s : State) (j : WaiterSlot) (o : Outcome) :
    (s.freeWaiter j o).allWaiters ≤ s.allWaiters := by
  refine List.countP_mono_left fun k _ hk => ?_
  simp only [State.freeWaiter_waiter] at hk
  split at hk
  · cases hk
  · exact hk

theorem State.credit_congr {s t : State} (h : ∀ r, (t.resource r).holders = (s.resource r).holders)
    (hw : ∀ j, t.waiter j = s.waiter j) : t.credit = s.credit := by
  simp only [State.credit, State.allHolders_congr h, State.allWaiters_congr hw]

theorem State.credit_freeWaiter_le (s : State) (j : WaiterSlot) (o : Outcome) :
    (s.freeWaiter j o).credit ≤ s.credit := by
  have h1 : (s.freeWaiter j o).allHolders = s.allHolders := State.allHolders_congr fun r => by simp
  have h2 := s.allWaiters_freeWaiter_le j o
  simp only [State.credit]
  omega

theorem State.setResource_holders {s : State} {r : ResourceId} {x : Resource}
    (h : x.holders = (s.resource r).holders) (k : ResourceId) :
    ((s.setResource r x).resource k).holders = (s.resource k).holders := by
  rw [State.setResource_resource]
  split
  · subst k; exact h
  · rfl

/-! ### What each item uses up -/

/-- A holder more at most. -/
theorem State.allHolders_beginLease (s : State) (i : LeaseSlot) (r : ResourceId) (c : Client) (m : Mode) (u : Urgency)
    (iv : Interval) : (s.beginLease i r c m u iv).allHolders ≤ s.allHolders + 1 := by
  have hy : ((s.beginLease i r c m u iv).resource r).holders = (s.resource r).holders.set c (some i) := by simp
  have others : ∀ k, k ≠ r → (s.beginLease i r c m u iv).resource k = s.resource k := fun k hk => by simp [hk]
  cases h : (s.resource r).holder c with
  | none =>
    rw [State.allHolders_succ (Resource.holderCount_set_some hy h) fun k hk => by rw [others k hk]]
  | some i' =>
    refine le_of_eq_of_le ?_ (Nat.le_succ _)
    unfold State.allHolders
    refine congrArg List.sum (List.map_congr_left fun k _ => ?_)
    by_cases hk : k = r
    · subst hk
      simp only [Resource.holderCount_eq_countP, Resource.holder_set hy]
      refine List.countP_congr fun d _ => ?_
      by_cases hd : d = c
      · simp [hd, h]
      · simp [hd]
    · rw [others k hk]

/-- A grant makes a holder of a waiter. -/
theorem State.credit_grantWaiter {s : State} {j : WaiterSlot} {w : Waiter} (i : LeaseSlot) (h : s.waiter j = some w) :
    (s.grantWaiter j w i).credit + 9 ≤ s.credit := by
  simp only [State.grantWaiter]
  generalize grantInterval (s.resource w.resource).config s.now w.term = iv
  generalize hu : s.post w.client _ = u
  have hu1 : u.allHolders = s.allHolders := by subst hu; exact State.allHolders_congr fun r => rfl
  have hu2 : u.allWaiters = s.allWaiters := by subst hu; exact State.allWaiters_congr fun r => rfl
  have hw : (u.beginLease i w.resource w.client w.mode w.urgency iv).waiter j = some w := by subst hu; simpa using h
  generalize ho : Outcome.granted _ = o
  have h1 := u.allHolders_beginLease i w.resource w.client w.mode w.urgency iv
  have h2 : (u.beginLease i w.resource w.client w.mode w.urgency iv).allWaiters = u.allWaiters :=
    State.allWaiters_congr fun _ => rfl
  have h3 := State.allWaiters_freeWaiter hw o
  have h4 : ((u.beginLease i w.resource w.client w.mode w.urgency iv).freeWaiter j o).allHolders
      = (u.beginLease i w.resource w.client w.mode w.urgency iv).allHolders :=
    State.allHolders_congr fun r => State.freeWaiter_holders _ _ _ _
  simp only [State.credit]
  omega

/-- A pass's walk pays a preemption check for each of its grants. -/
theorem credit_walkQueue (r : ResourceId) (queue : List WaiterSlot) :
    ∀ (s : State) (n : Nat), (walkQueue r queue s n).state.credit + 9 * (walkQueue r queue s n).grants ≤ s.credit + 9 * n := by
  induction queue with
  | nil => exact fun _ _ => le_rfl
  | cons j rest ih =>
    intro s n
    unfold walkQueue
    split
    · exact le_rfl
    · rename_i w hw
      split
      · split
        · exact le_rfl
        · rename_i i hi
          have h1 := ih (s.grantWaiter j w i) (n + 1)
          have h2 := State.credit_grantWaiter i hw
          omega
      · exact le_rfl

theorem credit_passWalk (s : State) (r : ResourceId) :
    (s.passWalk r).state.credit + 9 * (s.passWalk r).grants ≤ s.credit := by
  unfold State.passWalk
  split
  · simpa using credit_walkQueue r (s.resource r).queue s 0
  · simp

/-- All that the resource's own step can do when one of its leases has left (R9 to R11): nothing where the resource is
neither HELD nor DRAINING; else its record takes its step, a settle is armed on entering SETTLING, and a grant pass
follows where it is left HELD or IDLE. -/
theorem State.afterLeaseLeft_cases (s : State) (r : ResourceId) (cause : EndCause) :
    ((s.resource r).state ≠ .held ∧ (s.resource r).state ≠ .draining ∧ s.afterLeaseLeft r cause = (s, [])) ∨
    (((s.resource r).state = .held ∨ (s.resource r).state = .draining) ∧
      (s.afterLeaseLeft r cause).1 = (if ((s.resource r).left cause s.now).state = .settling then
        (s.setResource r ((s.resource r).left cause s.now)).arm
          ⟨.resource r, none, .settle, s.now + (s.resource r).config.settle.setWidth 32⟩
      else s.setResource r ((s.resource r).left cause s.now)) ∧
      (s.afterLeaseLeft r cause).2
        = if ((s.resource r).left cause s.now).state = .held ∨ ((s.resource r).left cause s.now).state = .idle then
          [.pass r] else []) := by
  by_cases h : (s.resource r).state = .held ∨ (s.resource r).state = .draining
  · refine .inr ⟨h, (s.afterLeaseLeft_eq r cause h).1, ?_⟩
    simp only [State.afterLeaseLeft, State.settleOrIdle, Resource.left, ResourceConfig.fences]
    rcases h with h | h <;> simp only [h] <;> by_cases hc : (s.resource r).holderCount = 0
    · rcases Bool.eq_false_or_eq_true ((s.resource r).fenceMark ||
          (cause.isForced && decide ((s.resource r).config.forcedAction = .fence))) with hm | hm <;>
        by_cases hs : (s.resource r).config.settle = 0 <;> simp only [hm, hc, hs] <;> simp
    · rw [if_pos (by omega)]
      simp [hc]
    · simp [hc]
    · simp [hc, Nat.pos_iff_ne_zero, h]
  · refine .inl ⟨fun e => h (.inl e), fun e => h (.inr e), ?_⟩
    unfold State.afterLeaseLeft
    dsimp only
    split <;> simp_all

/-- That step leaves the other resources and every holder set as they were. -/
theorem State.afterLeaseLeft_resource_of_ne (s : State) (r : ResourceId) (cause : EndCause) {k : ResourceId}
    (hk : k ≠ r) : (s.afterLeaseLeft r cause).1.resource k = s.resource k := by
  rcases s.afterLeaseLeft_cases r cause with ⟨-, -, h⟩ | ⟨-, h, -⟩ <;> rw [h]
  split <;> simp [State.setResource_resource, hk]

theorem State.afterLeaseLeft_resource_self {s : State} {r : ResourceId} (cause : EndCause)
    (h : (s.resource r).state = .held ∨ (s.resource r).state = .draining) :
    (s.afterLeaseLeft r cause).1.resource r = (s.resource r).left cause s.now := by
  rw [(s.afterLeaseLeft_eq r cause h).1]
  split <;> simp

theorem State.afterLeaseLeft_holders (s : State) (r : ResourceId) (cause : EndCause) (k : ResourceId) :
    ((s.afterLeaseLeft r cause).1.resource k).holders = (s.resource k).holders := by
  rcases s.afterLeaseLeft_cases r cause with ⟨-, -, h⟩ | ⟨-, h, -⟩ <;> rw [h]
  split <;> exact State.setResource_holders (Resource.left_holders _ _ _) k

theorem State.afterLeaseLeft_queue (s : State) (r : ResourceId) (cause : EndCause) (k : ResourceId) :
    ((s.afterLeaseLeft r cause).1.resource k).queue = (s.resource k).queue := by
  by_cases hk : k = r
  · subst hk
    rcases s.afterLeaseLeft_cases k cause with ⟨-, -, h⟩ | ⟨h, -, -⟩
    · rw [h]
    · rw [State.afterLeaseLeft_resource_self cause h, Resource.left_queue]
  · rw [s.afterLeaseLeft_resource_of_ne r cause hk]

theorem State.afterLeaseLeft_leaseRecord (s : State) (r : ResourceId) (cause : EndCause) (i : LeaseSlot) :
    (s.afterLeaseLeft r cause).1.leaseRecord i = s.leaseRecord i := by
  rcases s.afterLeaseLeft_cases r cause with ⟨-, -, h⟩ | ⟨-, h, -⟩ <;> rw [h]
  split <;> rfl

theorem State.afterLeaseLeft_waiter (s : State) (r : ResourceId) (cause : EndCause) (j : WaiterSlot) :
    (s.afterLeaseLeft r cause).1.waiter j = s.waiter j := by
  rcases s.afterLeaseLeft_cases r cause with ⟨-, -, h⟩ | ⟨-, h, -⟩ <;> rw [h]
  split <;> rfl

theorem State.afterLeaseLeft_session (s : State) (r : ResourceId) (cause : EndCause) (c : Client) :
    (s.afterLeaseLeft r cause).1.session c = s.session c := by
  rcases s.afterLeaseLeft_cases r cause with ⟨-, -, h⟩ | ⟨-, h, -⟩ <;> rw [h]
  split <;> rfl

theorem State.afterLeaseLeft_gate (s : State) (r : ResourceId) (cause : EndCause) :
    (s.afterLeaseLeft r cause).1.gate = s.gate := by
  rcases s.afterLeaseLeft_cases r cause with ⟨-, -, h⟩ | ⟨-, h, -⟩ <;> rw [h]
  split <;> rfl

/-- That step sets off a grant pass at most. -/
theorem State.afterLeaseLeft_work (s : State) (r : ResourceId) (cause : EndCause) :
    (s.afterLeaseLeft r cause).2 = [] ∨ (s.afterLeaseLeft r cause).2 = [.pass r] := by
  rcases s.afterLeaseLeft_cases r cause with ⟨-, -, h⟩ | ⟨-, -, h⟩ <;> rw [h]
  · exact .inl rfl
  · split
    · exact .inr rfl
    · exact .inl rfl

/-- The end of a lease is one holder fewer. -/
theorem bound_endLease (i : LeaseSlot) (cause : EndCause) (s : State) :
    workBound (doWork (.endLease i cause) s).2 (doWork (.endLease i cause) s).1 < 1 + s.credit := by
  simp only [doWork, State.endLeaseStep]
  split
  · simp [workBound]
  · rename_i l hl
    split
    · rename_i hs
      generalize hu : (s.cutLine _).setResource l.resource _ = u
      have hx : (s.resource l.resource).holder l.holder = some i := State.stands_iff.1 hs
      have h1 : s.allHolders = u.allHolders + 1 := by
        refine State.allHolders_succ (r := l.resource) (Resource.holderCount_set_none ?_ hx) fun k hk => ?_
        · subst hu; simp
        · subst hu; simp [State.setResource_resource, hk]
      have h2 : u.allWaiters = s.allWaiters := by subst hu; exact State.allWaiters_congr fun _ => rfl
      have h3 : (u.afterLeaseLeft l.resource cause).1.credit = u.credit :=
        State.credit_congr (u.afterLeaseLeft_holders _ _) (u.afterLeaseLeft_waiter _ _)
      rcases u.afterLeaseLeft_work l.resource cause with h4 | h4 <;> simp only [workBound, h4, h3] <;>
        simp [Work.cost, State.credit] <;> omega
    · simp [workBound]

/-- A recall keeps all holders and waiters. -/
theorem bound_recall (i : LeaseSlot) (reason : RecallReason) (grace : Byte) (s : State) :
    workBound (doWork (.recallLease i reason grace) s).2 (doWork (.recallLease i reason grace) s).1 < 2 + s.credit := by
  have same : (doWork (.recallLease i reason grace) s).1.credit = s.credit := by
    simp only [doWork, State.recallLease]
    split
    · rfl
    · split_ifs
      · exact State.credit_congr (fun _ => rfl) fun _ => rfl
      · exact State.credit_congr (fun _ => rfl) fun _ => rfl
      · rfl
  have work : ((doWork (.recallLease i reason grace) s).2.map Work.cost).sum ≤ 1 := by
    simp only [doWork, State.recallLease]
    split
    · simp
    · split_ifs <;> simp [Work.cost]
  simp only [workBound, same]
  omega

theorem State.preempted_length (s : State) (r : ResourceId) : (s.preempted r).length ≤ 4 := by
  simp only [State.preempted]
  split
  · simp
  · split
    · refine (List.length_filter_le _ _).trans ?_
      rw [List.length_map]
      exact (s.resource r).holderCount_le
    · simp

theorem credit_freeLease (s : State) (i : LeaseSlot) (cause : EndCause) : (s.freeLease i cause).credit = s.credit :=
  State.credit_congr (fun r => by simp) (fun j => by simp)

/-- Every item of work is worth at least one more than what it leaves and what it sets off. -/
theorem workBound_doWork (w : Work) (s : State) : workBound (doWork w s).2 (doWork w s).1 < w.cost + s.credit := by
  cases w with
  | pass r =>
    simp only [doWork, State.grantPass]
    have h1 := credit_passWalk s r
    generalize s.passWalk r = walk at h1 ⊢
    have h2 : (walk.state.setResource r { walk.state.resource r with starved := walk.starved }).credit
        = walk.state.credit := State.credit_congr (State.setResource_holders rfl) fun _ => rfl
    split
    · simp [workBound, Work.cost, h2]; omega
    · simp [workBound, Work.cost, h2]; omega
  | check r =>
    have h1 := s.preempted_length r
    simp [doWork, workBound, State.preemptionCheck, Work.cost, Function.comp_def]
    omega
  | recallLease i reason grace => exact bound_recall i reason grace s
  | endLease i cause => exact bound_endLease i cause s
  | freeSlot i cause => simp [doWork, workBound, Work.cost, credit_freeLease]
  | starvedFrom index =>
    simp only [doWork]
    split
    · simp [workBound, Work.cost]
    · rename_i r hr
      have h := List.find?_some hr
      simp only [Bool.and_eq_true, decide_eq_true_eq] at h
      have := r.isLt
      simp [workBound, Work.cost]
      omega
  | endHolding r c cause =>
    simp only [doWork]
    split <;> simp [workBound, Work.cost]
  | removeWaiting r c o =>
    simp only [doWork, State.removeWaitingStep, State.endWaiter]
    split
    · simp [workBound, Work.cost]
    · split
      · simp [workBound, Work.cost]
      · rename_i j _ _ w _
        have h1 := (s.giveBack c 2).credit_freeWaiter_le j o
        have h2 : (s.giveBack c 2).credit = s.credit := State.credit_congr (fun _ => rfl) fun _ => rfl
        split <;> simp [workBound, Work.cost] <;> omega

theorem workBound_append (a b : List Work) (s : State) : workBound (a ++ b) s = workBound a s + (b.map Work.cost).sum := by
  simp only [workBound, List.map_append, List.sum_append]; omega

theorem workBound_step (w : Work) (rest : List Work) (s : State) :
    workBound ((doWork w s).2 ++ rest) (doWork w s).1 < workBound (w :: rest) s := by
  have h := workBound_doWork w s
  rw [workBound_append]
  simp only [workBound, List.map_cons, List.sum_cons] at h ⊢
  omega

/-! ### The work of an event is done -/

/-- Fuel beyond the bound changes nothing. -/
theorem runWork_of_bound {n m : Nat} {work : List Work} {s : State} (hn : workBound work s ≤ n)
    (hm : workBound work s ≤ m) : runWork n work s = runWork m work s := by
  induction n generalizing m work s with
  | zero =>
    cases work with
    | nil => simp
    | cons w rest => have := workBound_step w rest s; omega
  | succ n ih =>
    cases work with
    | nil => simp
    | cons w rest =>
      have h := workBound_step w rest s
      obtain ⟨m, rfl⟩ : ∃ k, m = k + 1 := ⟨m - 1, by omega⟩
      simp only [runWork_cons]
      exact ih (by omega) (by omega)

theorem State.run_of_bound {n : Nat} {work : List Work} {s : State} (hn : workBound work s ≤ n)
    (hb : workBound work s ≤ engineFuel) : runWork n work s = s.run work := runWork_of_bound hn hb

/-- Of two lists, one behind the other, the first is done with all it sets off before the second (R82, R117). -/
theorem runWork_append {n : Nat} {a b : List Work} {s : State} (h : workBound (a ++ b) s ≤ n) :
    ∃ k, workBound b (runWork n a s) ≤ k ∧ runWork n (a ++ b) s = runWork k b (runWork n a s) := by
  induction n generalizing a s with
  | zero =>
    cases a with
    | nil => exact ⟨0, h, rfl⟩
    | cons w a => have := workBound_step w (a ++ b) s; simp only [List.cons_append] at h; omega
  | succ n ih =>
    cases a with
    | nil => exact ⟨n + 1, h, by simp⟩
    | cons w a =>
      have h1 := workBound_step w (a ++ b) s
      simp only [List.cons_append, runWork_cons] at h ⊢
      rw [← List.append_assoc] at h1 ⊢
      exact ih (by omega)

/-- What every item keeps holds with nothing left to do when an event's work is done. -/
theorem State.run_done {P : List Work → State → Prop}
    (item : ∀ w rest s, P (w :: rest) s → P ((doWork w s).2 ++ rest) (doWork w s).1) {work : List Work} {s : State}
    (hl : work.length ≤ 12) (h : P work s) : P [] (s.run work) := by
  have key : ∀ n work s, workBound work s ≤ n → P work s → P [] (runWork n work s) := by
    intro n
    induction n with
    | zero =>
      intro work s hb h
      cases work with
      | nil => exact h
      | cons w rest => have := workBound_step w rest s; omega
    | succ n ih =>
      intro work s hb h
      cases work with
      | nil => exact h
      | cons w rest =>
        have := workBound_step w rest s
        exact ih _ _ (by omega) (item w rest s h)
  exact key engineFuel work s (workBound_le hl s) h

/-- An item of work and what it sets off (R1). -/
theorem State.run_item (s : State) (w : Work) : s.run [w] = (doWork w s).1.run (doWork w s).2 := by
  have h := workBound_step w [] s
  have h1 : workBound [w] s ≤ engineFuel := workBound_le (by simp) s
  rw [List.append_nil] at h
  have h2 : runWork (engineFuel - 1) (doWork w s).2 (doWork w s).1 = (doWork w s).1.run (doWork w s).2 :=
    State.run_of_bound (by omega) (by omega)
  rw [← h2, State.run, runWork_step (by decide), List.append_nil]

/-- An event's work done in two parts. -/
theorem State.run_append (s : State) {first next : List Work} (h : first.length + next.length ≤ 12) :
    s.run (first ++ next) = (s.run first).run next := by
  obtain ⟨k, hk, e⟩ := runWork_append (workBound_le (by simpa using h) s)
  exact e.trans (State.run_of_bound hk (workBound_le (by omega) _))

/-- Settles O27: an item lowers the bound of the list by at least one, so that the fuel is never used up. -/
theorem engineWorkEnds : Obligations.EngineWorkEnds :=
  ⟨fun s _ _ h => State.run_of_bound ((workBound_le h s).trans (Nat.le_add_right _ _)) (workBound_le h s),
    fun s => runWork_nil _ s, State.run_item, fun s _ _ h => s.run_append h⟩

end Sys2Proof.Machine
end

section
/-!
SUPPORT. Invariants of the engine's events. A property of a state with a list of work still to do that every item of work
and every event's own first step keeps is kept by every request and every expiry; a law that such a property carries
through an event is kept by every command.
-/

namespace Sys2Proof.Machine

/-! ### What an expiry is current for (R3, R105) -/

theorem State.currentLease_some {s : State} {e : Entry} {i : LeaseSlot} {l : Lease}
    (h : s.currentLease e = some (i, l)) : s.lease i = some l ∧ l.phase.purpose = e.purpose := by
  unfold State.currentLease at h
  split at h
  · split at h
    · rename_i hl
      split_ifs at h with hc
      cases h
      exact ⟨hl, hc.2.1⟩
    · cases h
  · cases h

theorem State.currentResource_some {s : State} {e : Entry} {r : ResourceId} (h : s.currentResource e = some r) :
    (s.resource r).state = .settling := by
  unfold State.currentResource at h
  split at h
  · split_ifs at h with hc
    cases h
    exact hc.1
  · cases h

/-! ### The tables an event works on -/

/-- The parts of the state that the laws of tables, queues, counts and lines speak of. -/
def State.tables (s : State) :
    Vector Resource 12 × Vector LeaseRecord 32 × Vector WaiterRecord 24 × Vector Session 4 × Gate :=
  (s.resources, s.leases, s.waiters, s.sessions, s.gate)

/-- A lease record as an event rewrites it in place: of the same client on the same resource, downgraded at most, never
ACTIVE again, and in a phase that fits the policy (R26, R38, R39, R41, R50, R74, R76, R89). -/
structure Lease.RevisedTo (l l' : Lease) (c : ResourceConfig) : Prop where
  resource : l'.resource = l.resource
  holder : l'.holder = l.holder
  mode : l'.mode = l.mode ∨ l'.mode = .shared
  state : l'.state = .active → l.state = .active
  phase : l'.phase = l.phase ∨ l'.phase = .grace ∨ (l.phase = .warn ∧ l'.phase = .expire) ∨
    ((l'.phase = .warn ∨ l'.phase = .expire) ∧ c.policy = .term)

/-- A client's waiter as ACQUIRE makes it (R59). -/
def AcquireParams.waiter (a : AcquireParams) (c : Client) (now : Tick) : Waiter :=
  ⟨a.resource, c, a.mode, a.urgency, a.term, now + a.waitLimit.setWidth 32⟩

/-- An admitted ACQUIRE has joined the queue: by way of a full lease table, its resource is starved (R33, R59). -/
def State.queued (s : State) (c : Client) (a : AcquireParams) (j : WaiterSlot) (full : Bool) : State :=
  let t := s.enqueue j (a.waiter c s.now)
  if full then t.setResource a.resource { t.resource a.resource with starved := true } else t

/-- A property of the state and the work still to do that every event keeps: it holds through every item of work, and
through each first step with which a request or an expiry begins. CONFIGURE_RESOURCE is said apart. -/
structure EventInvariant (P : List Work → State → Prop) : Prop where
  start : ∀ work s, P [] s → P work s
  item : ∀ w rest s, P (w :: rest) s → P ((doWork w s).2 ++ rest) (doWork w s).1
  quiet : ∀ s t, t.tables = s.tables → P [] s → P [] t
  session : ∀ s c x, x.leaseCount = (s.session c).leaseCount → x.waiterCount = (s.session c).waiterCount → P [] s →
    P [] (s.setSession c x)
  lease : ∀ s i l l', s.lease i = some l → l.RevisedTo l' (s.resource l.resource).config → P [] s → P [] (s.setLease i l')
  grant : ∀ s c a i, s.admission c a = none → s.immediateAllowed a = true → s.freeLeaseSlot = some i → P [] s →
    P [] (s.beginLease i a.resource c a.mode a.urgency (grantInterval (s.resource a.resource).config s.now a.term))
  queue : ∀ s c a j, s.admission c a = none → s.freeWaiterSlot = some j → P [] s →
    P [] (s.queued c a j (s.immediateAllowed a))
  freeWaiter : ∀ s j o, P [] s → P [] (s.freeWaiter j o)
  online : ∀ s r, (s.resource r).state = .offline → P [] s → P [] (s.setResource r { s.resource r with state := .idle })
  offline : ∀ s r, (s.resource r).state = .idle ∨ (s.resource r).state = .settling ∨ (s.resource r).state = .fenced →
    P [] s → P [] (s.offlineNow r)
  drain : ∀ s r, (s.resource r).state = .held → P [] s → P ((s.beginDraining r).drainRecalls r) (s.beginDraining r)
  unfence : ∀ s r, (s.resource r).state = .fenced → P [] s → P (s.settleOrIdle r).2 (s.settleOrIdle r).1
  unmark : ∀ s r, (s.resource r).state = .held → P [] s →
    P [.pass r] (s.setResource r { s.resource r with fenceMark := false })
  settled : ∀ s r, (s.resource r).state = .settling → P [] s →
    P [.pass r] (s.setResource r { s.resource r with state := .idle, settleDeadline := none })

namespace EventInvariant

variable {P : List Work → State → Prop} (h : EventInvariant P) {s : State}

include h

/-! ### Steps that several commands share -/

theorem done {work : List Work} (hl : work.length ≤ 12) (hs : P work s) : P [] (s.run work) :=
  State.run_done h.item hl hs

theorem run {work : List Work} (hl : work.length ≤ 12) (hs : P [] s) : P [] (s.run work) := h.done hl (h.start _ _ hs)

theorem setBox (c : Client) (x : NoticeBox) (hs : P [] s) : P [] (s.setBox c x) := h.quiet s _ rfl hs

theorem armLease (i : LeaseSlot) (l : Lease) (hs : P [] s) : P [] (s.armLease i l) := h.quiet s _ rfl hs

theorem endWaiter (j : WaiterSlot) (w : Waiter) (o : Outcome) (hs : P [] s) :
    P [] ((s.endWaiter j w o).1.run (s.endWaiter j w o).2) := by
  refine h.run ?_ (h.freeWaiter s j o hs)
  unfold State.endWaiter
  dsimp only
  split <;> simp

theorem endSession (c : Client) (o : Outcome) (cause : EndCause) (e : SessionEnd) (hs : P [] s) :
    P [] (s.endSession c o cause e).1 := by
  have h1 : P [] (s.removeWaiters c o) := h.run (by simp [resourceIds]) hs
  have h2 : P [] ((s.removeWaiters c o).endLeases c cause) := h.run (by simp [resourceIds]) h1
  exact h.session _ c _ rfl rfl (h.setBox c _ h2)

/-! ### The requests -/

theorem queuedPath {c : Client} {a : AcquireParams} {full : Bool} (ha : s.admission c a = none)
    (hf : s.immediateAllowed a = full) (hs : P [] s) : P [] (s.queuedPath c a full).2 := by
  unfold State.queuedPath
  split
  · exact hs
  · rename_i j hj
    split
    · exact hs
    · have h1 := h.queue s c a j ha hj hs
      rw [hf] at h1
      dsimp only
      split
      · exact h.run (by simp) h1
      · exact h1

theorem acquire {c : Client} {params : List Byte} (hs : P [] s) : P [] (acquireBody c params s).2 := by
  unfold acquireBody
  split
  · exact hs
  · rename_i a _
    split
    · exact hs
    · rename_i ha
      unfold State.admitted
      split
      · rename_i hi
        split
        · split
          · exact hs
          · exact h.queuedPath ha hi hs
        · rename_i i hfree
          split
          · exact h.grant _ c a i ha hi hfree (h.setBox c _ hs)
          · exact hs
      · rename_i hi
        split
        · exact hs
        · exact h.queuedPath ha (by simpa using hi) hs

theorem renew {c : Client} {params : List Byte} (hs : P [] s) : P [] (renewBody c params s).2 := by
  unfold renewBody
  dsimp only
  split
  · rename_i i l hv
    split_ifs with hp ha
    · exact hs
    · exact hs
    · exact hs
    · have hpol : (s.resource l.resource).config.policy = .term := by
        cases hq : (s.resource l.resource).config.policy <;> simp_all
      refine h.armLease _ _ (h.lease s i l _ (State.resolveOwnLease_valid hv).1 ⟨rfl, rfl, .inl rfl, id, ?_⟩ hs)
      refine .inr (.inr (.inr ⟨?_, hpol⟩))
      simp only [termInterval]
      split_ifs <;> simp
  · exact hs

theorem downgrade {c : Client} {params : List Byte} (hs : P [] s) : P [] (downgradeBody c params s).2 := by
  unfold downgradeBody
  split
  · rename_i i l hv
    split_ifs
    · exact hs
    · exact hs
    · exact hs
    · exact h.run (by simp) (h.lease s i l _ (State.resolveOwnLease_valid hv).1 ⟨rfl, rfl, .inr rfl, id, .inl rfl⟩ hs)
  · exact hs

theorem cancel {c : Client} {params : List Byte} (hs : P [] s) : P [] (cancelBody c params s).2 := by
  unfold cancelBody
  split
  · exact h.endWaiter _ _ _ (h.setBox c _ hs)
  · exact hs
  · exact hs
  · exact hs

theorem takeOffline {params : List Byte} (hs : P [] s) : P [] (takeOfflineBody params s).2 := by
  unfold takeOfflineBody
  split
  · exact hs
  · rename_i r _
    dsimp only
    have recalls : ∀ t : State, (t.drainRecalls r).length ≤ 12 := by
      intro t
      simp only [State.drainRecalls, State.activeHolders, List.length_map]
      refine (List.length_filter_le _ _).trans ?_
      rw [List.length_map]
      exact ((t.resource r).holderCount_le).trans (by decide)
    split
    · exact hs
    · exact hs
    · exact h.done (recalls _) (h.drain s r ‹_› hs)
    · exact h.offline s r (.inl ‹_›) hs
    · exact h.offline s r (.inr (.inl ‹_›)) hs
    · exact h.offline s r (.inr (.inr ‹_›)) hs

theorem clearFence {params : List Byte} (hs : P [] s) : P [] (clearFenceBody params s).2 := by
  unfold clearFenceBody
  split
  · exact hs
  · rename_i r _
    dsimp only
    split_ifs with h1 h2
    · refine h.done ?_ (h.unfence s r h1 hs)
      simp only [State.settleOrIdle]
      split <;> simp
    · exact h.done (by simp) (h.unmark s r h2.1 hs)
    · exact hs

theorem revoke {params : List Byte} (hs : P [] s) : P [] (revokeBody params s).2 := by
  unfold revokeBody
  split
  · split
    · exact hs
    · split
      · exact h.run (by simp) hs
      · split
        · exact h.run (by simp) hs
        · exact hs
  · exact hs

/-- Every request but CONFIGURE_RESOURCE keeps the invariant. -/
theorem body {k : Kind} (hk : k ≠ .configureResource) (p : Client) (params : List Byte) (hs : P [] s) :
    P [] (k.body p params s).2 := by
  cases k <;> dsimp only [Kind.body]
  case openSession =>
    unfold openSessionBody
    dsimp only
    split
    · exact hs
    · exact h.setBox p _ (h.session s p _ rfl rfl hs)
  case closeSession => exact h.endSession _ _ _ _ hs
  case setThreshold =>
    unfold setThresholdBody
    split
    · exact hs
    · exact h.setBox p _ (h.session s p _ rfl rfl hs)
  case acquire => exact h.acquire hs
  case renew => exact h.renew hs
  case release =>
    unfold releaseBody
    split
    · exact h.run (by simp) hs
    · exact hs
  case downgrade => exact h.downgrade hs
  case cancel => exact h.cancel hs
  case queryLease => unfold queryLeaseBody; split <;> exact hs
  case queryResource => unfold queryResourceBody; split <;> exact hs
  case queryDevice => exact hs
  case configureResource => exact absurd rfl hk
  case setOnline =>
    unfold setOnlineBody
    split
    · exact hs
    · dsimp only
      split_ifs with h1
      · exact h.online s _ h1 hs
      · exact hs
  case takeOffline => exact h.takeOffline hs
  case clearFence => exact h.clearFence hs
  case revoke => exact h.revoke hs
  case setTimebase =>
    unfold setTimebaseBody
    dsimp only
    split_ifs
    · exact hs
    · exact h.quiet s _ rfl hs
    · exact hs
  case setRights =>
    unfold setRightsBody
    split
    · split_ifs
      · exact hs
      · exact h.session s _ _ rfl rfl hs
    · exact hs
  case evictClient =>
    unfold evictClientBody
    split
    · exact hs
    · split_ifs
      · exact h.endSession _ _ _ _ hs
      · exact hs

/-! ### The expiries -/

theorem act {u : Purpose} {e : Entry} (hu : e.purpose = u) (hs : P [] s) : P [] (u.act e s) := by
  cases u <;> dsimp only [Purpose.act]
  case warn =>
    unfold warnAct
    split
    · exact hs
    · rename_i i l hc
      obtain ⟨hl, hp⟩ := State.currentLease_some hc
      rw [hu] at hp
      have hw : l.phase = .warn := by cases hq : l.phase <;> simp_all [Phase.purpose]
      exact h.armLease _ _ (h.lease _ i l _ hl ⟨rfl, rfl, .inl rfl, id, .inr (.inr (.inl ⟨hw, rfl⟩))⟩ (h.setBox _ _ hs))
  case expire =>
    unfold expireAct
    split
    · exact hs
    · exact h.run (by simp) hs
  case slice =>
    unfold sliceAct
    split
    · exact hs
    · rename_i i l hc
      dsimp only
      split_ifs
      · exact h.armLease _ _ (h.lease s i l _ (State.currentLease_some hc).1 ⟨rfl, rfl, .inl rfl, id, .inl rfl⟩ hs)
      · exact h.run (by simp) hs
  case grace =>
    unfold graceAct
    split
    · exact hs
    · exact h.run (by simp) hs
  case wait =>
    unfold waitAct
    split
    · exact hs
    · exact h.endWaiter _ _ _ (h.setBox _ _ (h.setBox _ _ hs))
  case settle =>
    unfold settleAct
    split
    · exact hs
    · rename_i r hc
      exact h.done (by simp) (h.settled s r (State.currentResource_some hc) hs)

end EventInvariant

/-! ### The commands -/

theorem State.deliver_tables (s : State) : s.deliver.tables = s.tables := rfl

theorem State.testHead_tables (s t : State) : (s.testHead t).tables = t.tables := by
  rcases s.testHead_cases t with h | h
  · rw [h]
  · rw [h, State.deliver_tables]

/-- A transaction reaches ports and notice boxes alone (R148). -/
theorem State.transact_tables (s : State) (p : Client) (received : List Byte) :
    (s.transact p received).tables = s.tables := by
  have take : ∀ answers received, (s.take p answers received).state.tables = s.tables := by
    intro answers received
    unfold State.take
    repeat' split
    all_goals rfl
  have selected : ∀ selector received, (s.selected p selector received).state.tables = s.tables := by
    intro selector received
    unfold State.selected
    split_ifs
    · rfl
    · exact take _ _
    · exact take _ _
    · rfl
  unfold State.transact
  split
  · rfl
  · split
    · rfl
    · exact selected _ _

/-- What an event's invariant carries from the event's beginning to its end, every command but DEVICE_RESET keeps; what
CONFIGURE_RESOURCE writes is said apart. -/
theorem EventInvariant.exec {P : List Work → State → Prop} (h : EventInvariant P) {L : State → Prop} {s t : State}
    (begins : P [] s.beginEvent) (ends : ∀ u, P [] u → L u.endEvent)
    (quiet : ∀ u v : State, v.tables = u.tables → L u → L v)
    (configures : ∀ params, P [] (configureResourceBody params s.beginEvent).2) (hs : L s)
    {c : Instr} (hc : c ≠ .deviceReset) (he : exec c s = .next t) : L t := by
  have requests : ∀ (k : Kind) (p : Client), L (s.serve p k (k.body p)) := by
    intro k p
    have body : ∀ params, P [] (k.body p params s.beginEvent).2 := by
      intro params
      by_cases hk : k = .configureResource
      · subst hk; exact configures params
      · exact h.body hk p params begins
    rcases s.serve_cases p k (k.body p) with ⟨e, -⟩ | ⟨q, -, -, ⟨status, -, e⟩ | ⟨-, e⟩⟩ <;> rw [e]
    · exact hs
    · exact quiet s.beginEvent.endEvent _ rfl (ends _ begins)
    · exact quiet _ _ (State.testHead_tables _ _) (ends _ (body q.params))
  have expiries : ∀ u : Purpose, L (s.takeExpiry u u.act) := by
    intro u
    unfold State.takeExpiry
    split
    · exact hs
    · rename_i e _
      split_ifs with hu
      · have taken : P [] s.expiryTaken := h.quiet s.beginEvent _ rfl begins
        exact quiet (u.act e s.expiryTaken).endEvent _ rfl (ends _ (h.act hu taken))
      · exact hs
  have teardown : ∀ p, L (s.takeTeardown p) := by
    intro p
    refine quiet _ _ (State.testHead_tables _ _) (ends _ ?_)
    split
    · exact h.endSession _ _ _ _ begins
    · exact begins
  have next : ∀ u, Host.Outcome.next u = (.next t : Host.Outcome State Fault Refusal) → L u → L t :=
    fun u e hu => Host.Outcome.next.inj e ▸ hu
  have transactions : ∀ p received, L (s.transact p received) :=
    fun p received => quiet s _ (s.transact_tables p received) hs
  induction c using command_cases with
  | kinds k p => rw [exec_kind] at he; exact next _ he (requests k p)
  | expiries u => rw [exec_purpose] at he; exact next _ he (expiries u)
  | unknownKind p =>
    simp only [Machine.exec, execUnknownKind] at he
    split at he
    · exact next _ he hs
    · split at he
      · exact next _ he (quiet s.beginEvent.endEvent _ rfl (ends _ begins))
      · exact next _ he hs
  | teardownClaim p =>
    simp only [Machine.exec, execTeardownClaim] at he
    split at he
    · exact next _ he (quiet (s.takeTeardown p) _ rfl (teardown p))
    · exact next _ he hs
  | discardedUnserved p => exact next _ he (quiet s _ rfl hs)
  | expiryDelivery => exact next _ he (quiet s _ rfl hs)
  | tick =>
    refine next _ he ?_
    split
    · exact hs
    · exact quiet s _ rfl hs
  | put p frame => exact next _ he (transactions p _)
  | takeAnswer p flag seq more => exact next _ he (transactions p _)
  | takeNotice p flag seq more => exact next _ he (transactions p _)
  | status p more => exact next _ he (transactions p _)
  | unknownTransaction p selector more => exact next _ he (transactions p _)
  | cutTransaction p received => exact next _ he (transactions p _)
  | placeAnswer p => exact next _ he (quiet s _ rfl hs)
  | portReset p =>
    simp only [Machine.exec, execPortReset] at he
    split at he
    · exact next _ he (quiet s _ rfl hs)
    · exact next _ he (quiet s _ rfl hs)
  | pclrDeasserted p => exact next _ he (quiet s _ rfl hs)
  | deviceReset => exact absurd rfl hc
  | resetDeasserted =>
    simp only [Machine.exec, execResetDeasserted] at he
    split at he
    · exact next _ he (quiet s _ rfl hs)
    · exact next _ he hs

/-- One cycle of REFCLK leaves the tables as they are. -/
theorem State.refclk_tables (s : State) : s.refclk.tables = s.tables := by
  unfold State.refclk
  split_ifs <;> rfl

end Sys2Proof.Machine
end

section
/-! The configuration of a resource is fixed while it is not OFFLINE. -/

namespace Sys2Proof.Machine

/-- Parameter bytes spell a record within its ranges alone (R6). -/
theorem configAt_inRange {params : List Byte} {offset : Nat} {c : ResourceConfig} (h : configAt params offset = some c) :
    c.inRange = true := by
  simp only [configAt, Option.ite_none_right_eq_some, Option.dite_none_right_eq_some] at h
  obtain ⟨_, _, hr, hc⟩ := h
  cases hc
  exact hr

/-- CONFIGURE_RESOURCE writes the configuration of an OFFLINE resource alone, if any (R7). -/
theorem configureResourceBody_cases (params : List Byte) (s : State) :
    (configureResourceBody params s).2 = s ∨ ∃ r c, (s.resource r).state = .offline ∧ c.inRange = true ∧
      (configureResourceBody params s).2 = s.setResource r { s.resource r with config := c } := by
  unfold configureResourceBody
  split
  · exact .inl rfl
  · rename_i r _
    split
    · exact .inl rfl
    · rename_i c hc
      dsimp only
      split_ifs with h
      · exact .inr ⟨r, c, h, configAt_inRange hc, rfl⟩
      · exact .inl rfl

/-- Every event but CONFIGURE_RESOURCE keeps every configuration. -/
theorem eventInvariant_config (r : ResourceId) (x : ResourceConfig) :
    EventInvariant fun _ s => (s.resource r).config = x where
  start _ _ h := h
  item w _ s h := ((kept_config r).doWork w s).trans h
  quiet s t e h := by
    have : t.resource r = s.resource r := congrArg (fun tables => tables.1[r]) e
    rwa [this]
  session _ _ _ _ _ h := h
  lease _ _ _ _ _ _ h := h
  grant s _ _ _ _ _ _ h := ((kept_config r).beginLease s _ _ _ _ _ _).trans h
  queue s c a j _ _ h := by
    have enqueued := ((kept_config r).enqueue s j (a.waiter c s.now)).trans h
    unfold State.queued
    dsimp only
    split
    · exact ((kept_config r).resource _ _ _ (by rfl)).trans enqueued
    · exact enqueued
  freeWaiter s j o h := ((kept_config r).freeWaiter s j o).trans h
  online s k _ h := ((kept_config r).resource s k _ (by rfl)).trans h
  offline s k _ h :=
    ((kept_config r).resource _ k _ (by rfl)).trans (((kept_config r).disarm _ _).trans (((kept_config r).dropQueue s k).trans h))
  drain s k _ h := ((kept_config r).resource _ k _ (by rfl)).trans (((kept_config r).dropQueue s k).trans h)
  unfence s k _ h := ((kept_config r).settleOrIdle s k).trans h
  unmark s k _ h := ((kept_config r).resource s k _ (by rfl)).trans h
  settled s k _ h := ((kept_config r).resource s k _ (by rfl)).trans h

/-- Settles O60: an event keeps the configurations, and CONFIGURE_RESOURCE writes that of an OFFLINE resource alone. -/
theorem configurationFixedWhileOnline : Obligations.ConfigurationFixedWhileOnline := by
  intro c s t r hc he hr
  refine (eventInvariant_config r (s.resource r).config).exec (L := fun u => (u.resource r).config = (s.resource r).config)
    rfl (fun _ h => h) (fun u v e h => ?_) (fun params => ?_) rfl hc he
  · have : v.resource r = u.resource r := congrArg (fun tables => tables.1[r]) e
    rwa [this]
  · rcases configureResourceBody_cases params s.beginEvent with e | ⟨k, c, hk, -, e⟩ <;> rw [e]
    · rfl
    · have : r ≠ k := by rintro rfl; exact hr hk
      rw [State.setResource_resource_of_ne _ _ _ _ this]
      rfl

end Sys2Proof.Machine
end

section
/-!
SUPPORT. The laws that tables, queues, counts and lines agree, within an event: between the end of a lease and the freeing
of its slot the lease stands in no holder set, and the sets that the gate unit holds back are not driven yet. Every item of
work and every event's first step keeps them so, and with nothing left to do they are the laws of the device.
-/

namespace Sys2Proof.Machine

/-- The record laws (R4, R15, R16, R25, R30, R54, R111) within an event that has this work still to do. -/
structure State.Working (work : List Work) (s : State) : Prop where
  named : ∀ r c i, (s.resource r).holder c = some i → s.holdsIn r c i
  standing : ∀ r c i, s.holdsIn r c i → (s.resource r).holder c = some i ∨ ∃ cause, .freeSlot i cause ∈ work
  queues : s.QueuesAgree
  oneClaim : s.OneClaimLaw
  counts : s.CountLaw
  lines : ∀ r c, (s.line r c = true ∨ ⟨r, c⟩ ∈ s.gate.held) ↔ ∃ i, (s.resource r).holder c = some i
  cuts : ∃ cuts : List Line, s.gate.driven = cuts.map .cut

/-! ### Between events -/

/-- An event begins with the laws of the device. -/
theorem State.RecordLaws.working {s : State} (h : s.RecordLaws) : s.beginEvent.Working [] := by
  refine ⟨fun r c i hi => (h.holders r c i).1 hi, fun r c i hi => .inl ((h.holders r c i).2 hi), h.queues, h.oneClaim,
    h.counts, fun r c => ?_, [], rfl⟩
  have : (∃ i, (s.resource r).holder c = some i) ↔ s.holds r c := exists_congr fun i => h.holders r c i
  simp [this, h.lines r c]

/-- With no work left, the end of the event restores the laws of the device. -/
theorem State.Working.recordLaws {s : State} (h : s.Working []) : s.endEvent.RecordLaws := by
  have agree : ∀ r c i, (s.resource r).holder c = some i ↔ s.holdsIn r c i :=
    fun r c i => ⟨h.named r c i, fun hi => (h.standing r c i hi).resolve_right (by simp)⟩
  refine ⟨agree, h.queues, h.oneClaim, h.counts, fun r c => ?_, rfl, ?_⟩
  · have : s.endEvent.holds r c ↔ ∃ i, (s.resource r).holder c = some i := exists_congr fun i => (agree r c i).symm
    rw [this, ← h.lines r c, State.endEvent_line]
    simp [or_comm]
  · obtain ⟨cuts, hc⟩ := h.cuts
    exact ⟨cuts, s.gate.held, by simp [hc]⟩

/-- The laws speak of the tables alone. -/
theorem State.RecordLaws.of_tables {s t : State} (h : s.RecordLaws) (e : t.tables = s.tables) : t.RecordLaws := by
  obtain ⟨h1, h2, h3, h4, h5, h6⟩ := h
  cases s; cases t
  simp only [State.tables, Prod.mk.injEq] at e
  obtain ⟨rfl, rfl, rfl, rfl, rfl⟩ := e
  exact ⟨h1, h2, h3, h4, h5, h6⟩

theorem State.Working.of_tables {s t : State} {work : List Work} (h : s.Working work) (e : t.tables = s.tables) :
    t.Working work := by
  obtain ⟨h1, h2, h3, h4, h5, h6, h7⟩ := h
  cases s; cases t
  simp only [State.tables, Prod.mk.injEq] at e
  obtain ⟨rfl, rfl, rfl, rfl, rfl⟩ := e
  exact ⟨h1, h2, h3, h4, h5, h6, h7⟩

namespace State.Working

variable {s t : State} {work work' : List Work}

/-- Only the slots to be freed count in the list. -/
theorem mono (h : s.Working work) (hw : ∀ i cause, .freeSlot i cause ∈ work → ∃ cause', .freeSlot i cause' ∈ work') :
    s.Working work' where
  __ := h
  standing r c i hi := (h.standing r c i hi).imp_right fun ⟨cause, hc⟩ => hw i cause hc

/-- A step that keeps who holds and who waits for what. -/
theorem of_same (h : s.Working work) (holders : ∀ r, (t.resource r).holders = (s.resource r).holders)
    (queue : ∀ r, (t.resource r).queue = (s.resource r).queue)
    (lease : ∀ i, (t.lease i).map (fun l => (l.resource, l.holder)) = (s.lease i).map fun l => (l.resource, l.holder))
    (waiter : ∀ j, t.waiter j = s.waiter j)
    (leaseCount : ∀ c, (t.session c).leaseCount = (s.session c).leaseCount)
    (waiterCount : ∀ c, (t.session c).waiterCount = (s.session c).waiterCount)
    (gate : t.gate = s.gate) : t.Working work := by
  have holder : ∀ r c, (t.resource r).holder c = (s.resource r).holder c := fun r => Resource.holder_congr (holders r)
  have holdsIn : ∀ r c i, t.holdsIn r c i ↔ s.holdsIn r c i := by
    intro r c i
    have e : ∀ u : State, u.holdsIn r c i ↔ (u.lease i).map (fun l => (l.resource, l.holder)) = some (r, c) := by
      simp [State.holdsIn, Option.map_eq_some_iff]
    rw [e, e, lease]
  have waitsIn : ∀ r c j, t.waitsIn r c j ↔ s.waitsIn r c j := by simp [State.waitsIn, waiter]
  refine ⟨?_, ?_, ?_, ?_, ?_, ?_, ?_⟩
  · simpa only [holder, holdsIn] using h.named
  · simpa only [holder, holdsIn] using h.standing
  · simpa only [State.QueuesAgree, queue, waiter] using h.queues
  · simpa only [State.OneClaimLaw, State.holds, holdsIn, waitsIn] using h.oneClaim
  · intro c
    have e : ∀ i, ((t.lease i).any fun l => decide (l.holder = c)) = (s.lease i).any fun l => decide (l.holder = c) := by
      intro i
      have := congrArg (Option.any fun p : ResourceId × Client => decide (p.2 = c)) (lease i)
      simpa [Option.any_map, Function.comp_def] using this
    simpa only [leaseCount, waiterCount, e, waiter] using h.counts c
  · simpa only [State.line, gate, holder] using h.lines
  · simpa only [gate] using h.cuts

/-- A step of a resource's record that leaves holders and queue as they are. -/
theorem setResource (h : s.Working work) (r : ResourceId) {x : Resource} (holders : x.holders = (s.resource r).holders)
    (queue : x.queue = (s.resource r).queue) : (s.setResource r x).Working work := by
  refine h.of_same (State.setResource_holders holders) (fun k => ?_) (fun _ => rfl) (fun _ => rfl) (fun _ => rfl)
    (fun _ => rfl) rfl
  rw [State.setResource_resource]
  split
  · subst k; exact queue
  · rfl

/-- A lease rewritten in place keeps its resource and its client. -/
theorem setLease (h : s.Working work) {i : LeaseSlot} {l l' : Lease} (hl : s.lease i = some l)
    (hr : l'.resource = l.resource) (hh : l'.holder = l.holder) : (s.setLease i l').Working work := by
  refine h.of_same (fun _ => rfl) (fun _ => rfl) (fun k => ?_) (fun _ => rfl) (fun _ => rfl) (fun _ => rfl) rfl
  rw [State.setLease_lease]
  split
  · subst k; simp [hl, hr, hh]
  · rfl

theorem setSession (h : s.Working work) {c : Client} {x : Session} (hl : x.leaseCount = (s.session c).leaseCount)
    (hw : x.waiterCount = (s.session c).waiterCount) : (s.setSession c x).Working work := by
  refine h.of_same (fun _ => rfl) (fun _ => rfl) (fun _ => rfl) (fun _ => rfl) (fun d => ?_) (fun d => ?_) rfl <;>
    rw [State.setSession_session] <;> split
  · subst d; exact hl
  · rfl
  · subst d; exact hw
  · rfl

/-! ### Waiters -/

/-- The waiter of a queue's slot waits for that queue's resource. -/
theorem waiter_of_queue (h : s.Working work) {r : ResourceId} {j : WaiterSlot} (hj : j ∈ (s.resource r).queue) :
    ∃ w, s.waiter j = some w ∧ w.resource = r := ((h.queues r).2 j).1 hj

end State.Working

/-- How many leases client `c` has in the lease table. -/
def State.leasesOf (s : State) (c : Client) : Nat :=
  leaseSlots.countP fun i => (s.lease i).any fun l => decide (l.holder = c)

/-- How many waiters client `c` has in the waiter pool. -/
def State.waitersOf (s : State) (c : Client) : Nat :=
  waiterSlots.countP fun j => (s.waiter j).any fun w => decide (w.client = c)

theorem State.countLaw_iff {s : State} : s.CountLaw ↔ ∀ c : Client,
    (s.session c).leaseCount = s.leasesOf c ∧ (s.session c).waiterCount = s.waitersOf c := Iff.rfl

theorem State.leasesOf_congr {s t : State} (h : ∀ i, t.lease i = s.lease i) (c : Client) : t.leasesOf c = s.leasesOf c := by
  simp only [State.leasesOf, h]

theorem State.waitersOf_congr {s t : State} (h : ∀ j, t.waiter j = s.waiter j) (c : Client) :
    t.waitersOf c = s.waitersOf c := by
  simp only [State.waitersOf, h]

/-- One lease more in the table is one more of its holder's. -/
theorem State.leasesOf_succ {s t : State} {i : LeaseSlot} {l : Lease} (ht : t.lease i = some l) (hs : s.lease i = none)
    (others : ∀ k, k ≠ i → t.lease k = s.lease k) (c : Client) :
    t.leasesOf c = s.leasesOf c + if c = l.holder then 1 else 0 := by
  unfold State.leasesOf
  split
  · subst c
    exact countP_eq_succ leaseSlots_nodup (mem_leaseSlots i) (by simp [ht]) (by simp [hs]) fun k hk => by rw [others k hk]
  · rename_i hc
    rw [Nat.add_zero]
    refine List.countP_congr fun k _ => ?_
    by_cases hk : k = i
    · subst hk; simp [ht, hs, Ne.symm hc]
    · rw [others k hk]

/-- One waiter more in the pool is one more of its client's. -/
theorem State.waitersOf_succ {s t : State} {j : WaiterSlot} {w : Waiter} (ht : t.waiter j = some w)
    (hs : s.waiter j = none) (others : ∀ k, k ≠ j → t.waiter k = s.waiter k) (c : Client) :
    t.waitersOf c = s.waitersOf c + if c = w.client then 1 else 0 := by
  unfold State.waitersOf
  split
  · subst c
    exact countP_eq_succ waiterSlots_nodup (mem_waiterSlots j) (by simp [ht]) (by simp [hs]) fun k hk => by rw [others k hk]
  · rename_i hc
    rw [Nat.add_zero]
    refine List.countP_congr fun k _ => ?_
    by_cases hk : k = j
    · subst hk; simp [ht, hs, Ne.symm hc]
    · rw [others k hk]

/-- The queues and the pool still agree when a waiter has been freed. -/
theorem State.QueuesAgree.freeWaiter {s : State} (h : s.QueuesAgree) (j : WaiterSlot) (o : Outcome) :
    (s.freeWaiter j o).QueuesAgree := by
  cases hw : s.waiter j with
  | none => rwa [State.freeWaiter_of_none hw]
  | some w =>
    intro r
    obtain ⟨nodup, mem⟩ := h r
    have queue : ((s.freeWaiter j o).resource r).queue = (s.resource r).queue.filter fun k => !decide (k = j) := by
      rw [State.freeWaiter_resource s j o hw]
      split
      · rfl
      · rename_i hr
        rw [eq_comm, List.filter_eq_self]
        intro k hk
        obtain ⟨w', hw', rfl⟩ := (mem k).1 hk
        have : k ≠ j := by rintro rfl; cases hw.symm.trans hw'; exact hr rfl
        simpa using this
    refine ⟨queue ▸ nodup.filter _, fun k => ?_⟩
    rw [queue, List.mem_filter, mem k, State.freeWaiter_waiter]
    by_cases hk : k = j <;> simp [hk]

/-- The freed waiter is one fewer of its client's. -/
theorem State.CountLaw.freeWaiter {s : State} (h : s.CountLaw) (j : WaiterSlot) (o : Outcome) :
    (s.freeWaiter j o).CountLaw := by
  cases hw : s.waiter j with
  | none => rwa [State.freeWaiter_of_none hw]
  | some w =>
    intro c
    obtain ⟨hl, hwc⟩ := State.countLaw_iff.1 h c
    have leases := State.leasesOf_congr (s.freeWaiter_lease j o) c
    have waiters := State.waitersOf_succ (s := s.freeWaiter j o) hw (by simp) (fun k hk => by simp [hk]) c
    rw [State.freeWaiter_session s j o hw]
    refine ⟨?_, ?_⟩
    · refine (Eq.trans ?_ hl).trans leases.symm
      split <;> rfl
    · change _ = (s.freeWaiter j o).waitersOf c
      split at waiters
      · rw [if_pos ‹_›, Session.loseWaiter]; dsimp only; omega
      · rw [if_neg ‹_›]; omega

namespace State.Working

variable {s t : State} {work work' : List Work}

theorem freeWaiter (h : s.Working work) (j : WaiterSlot) (o : Outcome) : (s.freeWaiter j o).Working work := by
  have holder : ∀ r c, ((s.freeWaiter j o).resource r).holder c = (s.resource r).holder c :=
    fun r => Resource.holder_congr (State.freeWaiter_holders s j o r)
  have holdsIn : ∀ r c i, (s.freeWaiter j o).holdsIn r c i ↔ s.holdsIn r c i := by simp [State.holdsIn]
  have waitsIn : ∀ r c k, (s.freeWaiter j o).waitsIn r c k → s.waitsIn r c k := by
    rintro r c k ⟨w, hw, e⟩
    rw [State.freeWaiter_waiter] at hw
    split at hw
    · cases hw
    · exact ⟨w, hw, e⟩
  refine ⟨?_, ?_, h.queues.freeWaiter j o, ?_, h.counts.freeWaiter j o, ?_, ?_⟩
  · simpa only [holder, holdsIn] using h.named
  · simpa only [holder, holdsIn] using h.standing
  · intro r c k hk
    obtain ⟨h1, h2⟩ := h.oneClaim r c k (waitsIn r c k hk)
    exact ⟨by simpa only [State.holds, holdsIn] using h1, fun k' hk' => h2 k' (waitsIn r c k' hk')⟩
  · simpa only [State.line, State.freeWaiter_gate, holder] using h.lines
  · simpa only [State.freeWaiter_gate] using h.cuts

/-! ### The beginning of a lease -/

/-- The parts of the laws that do not speak of waiters, after the beginning of a lease for a client that has none on the
resource. -/
theorem beginLease_named (h : s.Working work) {i : LeaseSlot} {r : ResourceId} {c : Client} (m : Mode) (u : Urgency)
    (iv : Interval) (hi : s.lease i = none) :
    ∀ r' c' i', ((s.beginLease i r c m u iv).resource r').holder c' = some i' →
      (s.beginLease i r c m u iv).holdsIn r' c' i' := by
  intro r' c' i' hh
  have old : (s.resource r').holder c' = some i' → (s.beginLease i r c m u iv).holdsIn r' c' i' := by
    intro ho
    obtain ⟨l, hl, e⟩ := h.named r' c' i' ho
    have : i' ≠ i := by rintro rfl; rw [hi] at hl; cases hl
    exact ⟨l, by rw [State.beginLease_lease, if_neg this]; exact hl, e⟩
  rw [State.beginLease_resource] at hh
  split at hh
  · subst r'
    rw [Resource.holder_set (x := s.resource r) rfl] at hh
    split at hh
    · subst c'
      cases hh
      exact ⟨_, by rw [State.beginLease_lease, if_pos rfl]; exact rfl, rfl, rfl⟩
    · exact old hh
  · exact old hh

theorem beginLease_standing (h : s.Working work) {i : LeaseSlot} {r : ResourceId} {c : Client} (m : Mode) (u : Urgency)
    (iv : Interval) (hc : ¬ s.holds r c) :
    ∀ r' c' i', (s.beginLease i r c m u iv).holdsIn r' c' i' →
      ((s.beginLease i r c m u iv).resource r').holder c' = some i' ∨ ∃ cause, .freeSlot i' cause ∈ work := by
  rintro r' c' i' ⟨l, hl, rfl, rfl⟩
  have set := fun k => Resource.holder_set (x := s.resource r) (y := (s.beginLease i r c m u iv).resource r) (c := c)
    (o := some i) (by simp) k
  rw [State.beginLease_lease] at hl
  split at hl
  · subst i'
    cases hl
    exact .inl (by rw [set, if_pos rfl])
  · refine (h.standing _ _ i' ⟨l, hl, rfl, rfl⟩).imp_left fun hs => ?_
    by_cases hr : l.resource = r
    · have : l.holder ≠ c := by rintro rfl; exact hc ⟨i', l, hl, hr, rfl⟩
      rw [hr] at hs ⊢
      rw [set, if_neg this, hs]
    · rw [State.beginLease_resource, if_neg hr]
      exact hs

theorem beginLease_lines (h : s.Working work) (i : LeaseSlot) (r : ResourceId) (c : Client) (m : Mode) (u : Urgency)
    (iv : Interval) : ∀ r' c', ((s.beginLease i r c m u iv).line r' c' = true ∨
      ⟨r', c'⟩ ∈ (s.beginLease i r c m u iv).gate.held) ↔ ∃ k, ((s.beginLease i r c m u iv).resource r').holder c' = some k := by
  intro r' c'
  have hline : (s.beginLease i r c m u iv).line r' c' = s.line r' c' := rfl
  have old := h.lines r' c'
  rw [hline, State.beginLease_gate, State.beginLease_resource]
  simp only [List.mem_append, List.mem_singleton, Line.mk.injEq]
  by_cases hr : r' = r
  · subst hr
    rw [if_pos rfl, Resource.holder_set (x := s.resource r') rfl]
    by_cases hc : c' = c
    · simp [hc]
    · simp [hc, old]
  · simp [hr, old]

theorem beginLease_counts (h : s.Working work) {i : LeaseSlot} (r : ResourceId) (c : Client) (m : Mode) (u : Urgency)
    (iv : Interval) (hi : s.lease i = none) : (s.beginLease i r c m u iv).CountLaw := by
  intro d
  obtain ⟨hl, hw⟩ := State.countLaw_iff.1 h.counts d
  have leases : (s.beginLease i r c m u iv).leasesOf d = s.leasesOf d + if d = c then 1 else 0 :=
    State.leasesOf_succ (t := s.beginLease i r c m u iv) (by rw [State.beginLease_lease, if_pos rfl]) hi
      (fun k hk => by simp [hk]) d
  rw [State.beginLease_session]
  refine ⟨?_, ?_⟩
  · change _ = (s.beginLease i r c m u iv).leasesOf d
    split at leases
    · subst d; rw [if_pos rfl, Session.gainLease]; dsimp only; omega
    · rw [if_neg ‹_›]; omega
  · refine Eq.trans ?_ hw
    split
    · subst d; rfl
    · rfl

theorem beginLease_queues (h : s.Working work) (i : LeaseSlot) (r : ResourceId) (c : Client) (m : Mode) (u : Urgency)
    (iv : Interval) : (s.beginLease i r c m u iv).QueuesAgree := by
  intro k
  have : ((s.beginLease i r c m u iv).resource k).queue = (s.resource k).queue := by
    rw [State.beginLease_resource]
    split
    · subst k; rfl
    · rfl
  rw [this]
  exact h.queues k

/-- A client begins to hold a lease on resource `r` alone, besides what it held. -/
theorem holds_of_beginLease {i : LeaseSlot} {r r' : ResourceId} {c c' : Client} {m : Mode} {u : Urgency} {iv : Interval}
    (h : (s.beginLease i r c m u iv).holds r' c') : s.holds r' c' ∨ (r' = r ∧ c' = c) := by
  obtain ⟨k, l, hl, rfl, rfl⟩ := h
  rw [State.beginLease_lease] at hl
  split at hl
  · cases hl; exact .inr ⟨rfl, rfl⟩
  · exact .inl ⟨k, l, hl, rfl, rfl⟩

/-- An immediate grant to a client without a lease or a waiter on the resource (R35). -/
theorem beginLease (h : s.Working work) {i : LeaseSlot} {r : ResourceId} {c : Client} (m : Mode) (u : Urgency)
    (iv : Interval) (hi : s.lease i = none) (hc : ¬ s.holds r c) (hw : ∀ j, ¬ s.waitsIn r c j) :
    (s.beginLease i r c m u iv).Working work := by
  refine ⟨h.beginLease_named m u iv hi, h.beginLease_standing m u iv hc, h.beginLease_queues i r c m u iv, ?_,
    h.beginLease_counts r c m u iv hi, h.beginLease_lines i r c m u iv, h.cuts⟩
  intro r' c' j hj
  obtain ⟨h1, h2⟩ := h.oneClaim r' c' j hj
  refine ⟨fun h3 => ?_, h2⟩
  rcases holds_of_beginLease h3 with h4 | ⟨rfl, rfl⟩
  · exact h1 h4
  · exact hw j hj

/-- A grant to a waiter (R63): the lease begins and the waiter goes, so its client has one claim on the resource as
before. -/
theorem grantWaiter (h : s.Working work) {j : WaiterSlot} {w : Waiter} {i : LeaseSlot} (hj : s.waiter j = some w)
    (hi : s.lease i = none) : (s.grantWaiter j w i).Working work := by
  have hclaim : s.waitsIn w.resource w.client j := ⟨w, hj, rfl, rfl⟩
  obtain ⟨nohold, only⟩ := h.oneClaim w.resource w.client j hclaim
  simp only [State.grantWaiter]
  generalize grantInterval (s.resource w.resource).config s.now w.term = iv
  generalize hp : s.post w.client _ = p
  have hs : p.Working work := by rw [← hp]; exact h.of_tables rfl
  have hpi : p.lease i = none := hp ▸ hi
  have hpn : ¬ p.holds w.resource w.client := hp ▸ nohold
  have hpo : p.OneClaimLaw := hs.oneClaim
  have hponly : ∀ k, p.waitsIn w.resource w.client k → k = j := hp ▸ only
  generalize Outcome.granted _ = o
  -- the laws but for the one claim hold after the lease has begun, and the freeing of the waiter keeps them
  have q := hs.beginLease_queues i w.resource w.client w.mode w.urgency iv
  have cnt := hs.beginLease_counts w.resource w.client w.mode w.urgency iv hpi
  have n := hs.beginLease_named (c := w.client) (r := w.resource) w.mode w.urgency iv hpi
  have st := hs.beginLease_standing (i := i) w.mode w.urgency iv hpn
  have ln := hs.beginLease_lines i w.resource w.client w.mode w.urgency iv
  have oneClaim : ∀ r c k, k ≠ j → p.waitsIn r c k → ¬ (p.beginLease i w.resource w.client w.mode w.urgency iv).holds r c := by
    intro r c k hk hwk h3
    rcases holds_of_beginLease h3 with h4 | ⟨rfl, rfl⟩
    · exact (hpo r c k hwk).1 h4
    · exact hk (hponly k hwk)
  have cuts : ∃ cuts : List Line, (p.beginLease i w.resource w.client w.mode w.urgency iv).gate.driven = cuts.map .cut :=
    hs.cuts
  have waits : ∀ r c k, (p.beginLease i w.resource w.client w.mode w.urgency iv).waitsIn r c k ↔ p.waitsIn r c k :=
    fun _ _ _ => Iff.rfl
  generalize p.beginLease i w.resource w.client w.mode w.urgency iv = b at q cnt n st ln oneClaim cuts waits
  have holder : ∀ r c, ((b.freeWaiter j o).resource r).holder c = (b.resource r).holder c :=
    fun r => Resource.holder_congr (State.freeWaiter_holders b j o r)
  have holdsIn : ∀ r c i, (b.freeWaiter j o).holdsIn r c i ↔ b.holdsIn r c i := by simp [State.holdsIn]
  refine ⟨?_, ?_, q.freeWaiter j o, ?_, cnt.freeWaiter j o, ?_, ?_⟩
  · simpa only [holder, holdsIn] using n
  · simpa only [holder, holdsIn] using st
  · have left : ∀ r c k, (b.freeWaiter j o).waitsIn r c k → k ≠ j ∧ p.waitsIn r c k := by
      rintro r c k ⟨w', hw', e⟩
      rw [State.freeWaiter_waiter] at hw'
      split at hw'
      · cases hw'
      · exact ⟨‹_›, (waits r c k).1 ⟨w', hw', e⟩⟩
    intro r c k hk
    obtain ⟨hkj, hk⟩ := left r c k hk
    refine ⟨?_, fun k' hk' => (hpo r c k hk).2 k' (left r c k' hk').2⟩
    simpa only [State.holds, holdsIn] using oneClaim r c k hkj hk
  · simpa only [State.line, State.freeWaiter_gate, holder] using ln
  · simpa only [State.freeWaiter_gate] using cuts

end State.Working

end Sys2Proof.Machine
end

section
/-! The record laws through every item of work and every event's first step, and so through every step. -/

namespace Sys2Proof.Machine

namespace State.Working

variable {s t : State} {work rest : List Work}

/-! ### A new waiter -/

/-- A waiter joins for a client without a lease or a waiter on the resource (R59). -/
theorem enqueue (h : s.Working work) {j : WaiterSlot} {w : Waiter} (hj : s.waiter j = none)
    (hc : ¬ s.holds w.resource w.client) (hw : ∀ k, ¬ s.waitsIn w.resource w.client k) :
    (s.enqueue j w).Working work := by
  have hq : ∀ r, j ∉ (s.resource r).queue := by
    intro r hm
    obtain ⟨w', hw', -⟩ := h.waiter_of_queue hm
    rw [hj] at hw'; cases hw'
  have resource := s.enqueue_resource j w (hq _)
  have holder : ∀ r c, ((s.enqueue j w).resource r).holder c = (s.resource r).holder c := by
    intro r c
    rw [resource]
    split <;> rfl
  have waitsIn : ∀ r c k, (s.enqueue j w).waitsIn r c k →
      s.waitsIn r c k ∨ (k = j ∧ r = w.resource ∧ c = w.client) := by
    rintro r c k ⟨w', hw', rfl, rfl⟩
    rw [State.enqueue_waiter] at hw'
    split at hw'
    · subst k; cases hw'; exact .inr ⟨rfl, rfl, rfl⟩
    · exact .inl ⟨w', hw', rfl, rfl⟩
  refine ⟨fun r c i hi => h.named r c i ((holder r c).symm.trans hi), fun r c i hi => ?_, fun r => ?_,
    fun r c k hk => ?_, fun c => ?_, ?_, h.cuts⟩
  · rw [holder]
    exact h.standing r c i hi
  · obtain ⟨nodup, mem⟩ := h.queues r
    rw [resource]
    split
    · subst r
      have le : s.enqueuePosition (s.resource w.resource).queue w.urgency ≤ (s.resource w.resource).queue.length :=
        Nat.sub_le _ _
      refine ⟨(List.perm_insertIdx j _ le).nodup_iff.2 (List.nodup_cons.2 ⟨hq _, nodup⟩), fun k => ?_⟩
      rw [List.mem_insertIdx le, State.enqueue_waiter, mem k]
      by_cases hk : k = j
      · simp [hk]
      · simp [hk]
    · rename_i hr
      refine ⟨nodup, fun k => ?_⟩
      rw [State.enqueue_waiter, mem k]
      by_cases hk : k = j
      · subst hk; simp [hj, Ne.symm hr]
      · simp [hk]
  · have only : ∀ k', (s.enqueue j w).waitsIn r c k' → k' = k := by
      intro k' hk'
      rcases waitsIn r c k hk with h1 | ⟨e, e1, e2⟩ <;> rcases waitsIn r c k' hk' with h2 | ⟨e', e1', e2'⟩
      · exact (h.oneClaim r c k h1).2 k' h2
      · subst e1' e2'; exact absurd h1 (hw k)
      · subst e1 e2; exact absurd h2 (hw k')
      · exact e'.trans e.symm
    refine ⟨?_, only⟩
    rcases waitsIn r c k hk with h1 | ⟨-, rfl, rfl⟩
    · exact (h.oneClaim r c k h1).1
    · exact hc
  · obtain ⟨hl, hwc⟩ := State.countLaw_iff.1 h.counts c
    have waiters : (s.enqueue j w).waitersOf c = s.waitersOf c + if c = w.client then 1 else 0 :=
      State.waitersOf_succ (t := s.enqueue j w) (by simp) hj (fun k hk => by simp [hk]) c
    rw [State.enqueue_session]
    refine ⟨?_, ?_⟩
    · refine Eq.trans ?_ hl
      split <;> rfl
    · change _ = (s.enqueue j w).waitersOf c
      split at waiters
      · rw [if_pos ‹_›, Session.gainWaiter]; dsimp only; omega
      · rw [if_neg ‹_›]; omega
  · simpa only [State.line, State.enqueue_gate, holder] using h.lines

/-! ### The end of a lease -/

/-- A lease leaves its holder set, its line being cut; its slot is still to be freed (R9 to R11, R15). -/
theorem leave (h : s.Working work) {i : LeaseSlot} {l : Lease} (hs : s.stands i l = true) (cause : EndCause)
    {x : Resource} (hx : x.holders = (s.resource l.resource).holders.set l.holder none)
    (hq : x.queue = (s.resource l.resource).queue) :
    ((s.cutLine ⟨l.resource, l.holder⟩).setResource l.resource x).Working (.freeSlot i cause :: work) := by
  have hi := State.stands_iff.1 hs
  have holder : ∀ r c, (((s.cutLine ⟨l.resource, l.holder⟩).setResource l.resource x).resource r).holder c
      = if r = l.resource ∧ c = l.holder then none else (s.resource r).holder c := by
    intro r c
    rw [State.setResource_resource]
    by_cases hr : r = l.resource
    · subst hr; rw [if_pos rfl, Resource.holder_set hx]; simp
    · simp [hr]
  refine ⟨fun r c k hk => ?_, fun r c k hk => ?_, fun r => ?_, h.oneClaim, h.counts, fun r c => ?_, ?_⟩
  · rw [holder] at hk
    split at hk
    · cases hk
    · exact h.named r c k hk
  · rw [holder]
    rcases h.standing r c k hk with h1 | ⟨cause', h1⟩
    · split
      · rename_i e
        obtain ⟨rfl, rfl⟩ := e
        cases hi.symm.trans h1
        exact .inr ⟨cause, by simp⟩
      · exact .inl h1
    · exact .inr ⟨cause', by simp [h1]⟩
  · have : (((s.cutLine ⟨l.resource, l.holder⟩).setResource l.resource x).resource r).queue = (s.resource r).queue := by
      rw [State.setResource_resource]
      split
      · subst r; exact hq
      · rfl
    rw [this]
    exact h.queues r
  · rw [holder]
    have old := h.lines r c
    rw [State.setResource_line, State.cutLine_line, State.setResource_gate, State.cutLine_gate]
    by_cases e : r = l.resource ∧ c = l.holder
    · obtain ⟨rfl, rfl⟩ := e
      simp
    · have e' : ¬ (⟨l.resource, l.holder⟩ : Line) = ⟨r, c⟩ := by rintro ⟨⟩; exact e ⟨rfl, rfl⟩
      have e'' : ¬ (⟨r, c⟩ : Line) = ⟨l.resource, l.holder⟩ := fun h => e' h.symm
      simpa [e', e'', e] using old
  · obtain ⟨cuts, hc⟩ := h.cuts
    exact ⟨cuts ++ [⟨l.resource, l.holder⟩], by simp [hc]⟩

/-- The resource's own step when a lease has left. -/
theorem afterLeaseLeft (h : s.Working work) (r : ResourceId) (cause : EndCause) :
    (s.afterLeaseLeft r cause).1.Working work :=
  h.of_same (s.afterLeaseLeft_holders r cause) (s.afterLeaseLeft_queue r cause)
    (fun i => by rw [State.lease, State.afterLeaseLeft_leaseRecord]; rfl) (s.afterLeaseLeft_waiter r cause)
    (fun c => by rw [State.afterLeaseLeft_session]) (fun c => by rw [State.afterLeaseLeft_session])
    (s.afterLeaseLeft_gate r cause)

/-- An item that frees no slot may leave the list. -/
theorem skip {w : Work} (h : s.Working (w :: rest)) (hw : ∀ i cause, w ≠ .freeSlot i cause) (more : List Work) :
    s.Working (more ++ rest) :=
  h.mono fun i cause hm => ⟨cause, List.mem_append_right _ ((List.mem_cons.1 hm).resolve_left fun e => hw i cause e.symm)⟩

theorem endLease {i : LeaseSlot} {cause : EndCause} (h : s.Working (.endLease i cause :: rest)) :
    (doWork (.endLease i cause) s).1.Working ((doWork (.endLease i cause) s).2 ++ rest) := by
  have h' : s.Working rest := h.skip (by simp) []
  simp only [doWork, State.endLeaseStep]
  split
  · exact h'
  · rename_i l hl
    split
    · rename_i hs
      have left := (h'.leave (x := { s.resource l.resource with
        holders := (s.resource l.resource).holders.set l.holder none }) hs cause rfl rfl).afterLeaseLeft l.resource cause
      refine left.mono fun k cause' hm => ⟨cause', ?_⟩
      rcases List.mem_cons.1 hm with e | hm
      · cases e; simp
      · simp [hm]
    · exact h'

/-- The freeing of a slot, the last step of a lease's end (R27). -/
theorem freeSlot {i : LeaseSlot} {cause : EndCause} (h : s.Working (.freeSlot i cause :: rest)) :
    (s.freeLease i cause).Working rest := by
  have kept : ∀ k cause', k ≠ i → Work.freeSlot k cause' ∈ Work.freeSlot i cause :: rest → Work.freeSlot k cause' ∈ rest := by
    intro k cause' hk hm
    refine (List.mem_cons.1 hm).resolve_left fun e => ?_
    cases e
    exact hk rfl
  by_cases hstand : ∀ l, s.lease i = some l → s.stands i l = true
  · rw [State.freeLease_of_standing cause hstand]
    refine { h with standing := fun r c k hk => ?_ }
    by_cases hki : k = i
    · subst hki
      obtain ⟨l, hl, rfl, rfl⟩ := hk
      exact .inl (State.stands_iff.1 (hstand l hl))
    · exact (h.standing r c k hk).imp_right fun ⟨cause', hm⟩ => ⟨cause', kept k cause' hki hm⟩
  · obtain ⟨l, hl, hs⟩ : ∃ l, s.lease i = some l ∧ s.stands i l = false := by simpa using hstand
    have lease := State.freeLease_lease cause hl hs
    have holdsIn : ∀ r c k, (s.freeLease i cause).holdsIn r c k ↔ k ≠ i ∧ s.holdsIn r c k := by
      intro r c k
      simp only [State.holdsIn, lease]
      by_cases hk : k = i <;> simp [hk]
    refine ⟨fun r c k hk => ?_, fun r c k hk => ?_, ?_, fun r c j hj => ?_, fun c => ?_, ?_, ?_⟩
    · rw [State.freeLease_resource] at hk
      refine (holdsIn r c k).2 ⟨?_, h.named r c k hk⟩
      rintro rfl
      obtain ⟨l', hl', rfl, rfl⟩ := h.named r c k hk
      cases hl.symm.trans hl'
      exact State.stands_eq_false.1 hs hk
    · obtain ⟨hki, hk⟩ := (holdsIn r c k).1 hk
      rw [State.freeLease_resource]
      exact (h.standing r c k hk).imp_right fun ⟨cause', hm⟩ => ⟨cause', kept k cause' hki hm⟩
    · simpa only [State.QueuesAgree, State.freeLease_resource, State.freeLease_waiter] using h.queues
    · have waits : ∀ k, (s.freeLease i cause).waitsIn r c k ↔ s.waitsIn r c k := by simp [State.waitsIn]
      obtain ⟨h1, h2⟩ := h.oneClaim r c j ((waits j).1 hj)
      exact ⟨fun ⟨k, hk⟩ => h1 ⟨k, ((holdsIn r c k).1 hk).2⟩, fun k hk => h2 k ((waits k).1 hk)⟩
    · obtain ⟨hlc, hwc⟩ := State.countLaw_iff.1 h.counts c
      have leases := State.leasesOf_succ (s := s.freeLease i cause) hl (by simp [lease]) (fun k hk => by simp [lease, hk]) c
      have waiters := State.waitersOf_congr (s.freeLease_waiter i cause) c
      rw [State.freeLease_session cause hl hs]
      refine ⟨?_, ?_⟩
      · change _ = (s.freeLease i cause).leasesOf c
        split at leases
        · rw [if_pos ‹_›, Session.loseLease]; dsimp only; omega
        · rw [if_neg ‹_›]; omega
      · refine (Eq.trans ?_ hwc).trans waiters.symm
        split <;> rfl
    · simpa only [State.line, State.freeLease_gate, State.freeLease_resource] using h.lines
    · simpa only [State.freeLease_gate] using h.cuts

/-! ### The grant pass -/

theorem walkQueue (r : ResourceId) (queue : List WaiterSlot) :
    ∀ (s : State) (n : Nat), s.Working work → (walkQueue r queue s n).state.Working work := by
  induction queue with
  | nil => exact fun _ _ h => h
  | cons j queue ih =>
    intro s n h
    unfold Machine.walkQueue
    split
    · exact h
    · rename_i w hw
      split
      · split
        · exact h
        · rename_i i hi
          exact ih _ _ (h.grantWaiter hw (State.freeLeaseSlot_free hi))
      · exact h

theorem passWalk (h : s.Working work) (r : ResourceId) : (s.passWalk r).state.Working work := by
  unfold State.passWalk
  split
  · exact walkQueue r _ s 0 h
  · exact h

/-- Every item of work keeps the record laws within the event. -/
theorem item (w : Work) (rest : List Work) (s : State) (h : s.Working (w :: rest)) :
    (doWork w s).1.Working ((doWork w s).2 ++ rest) := by
  cases w with
  | pass r => exact ((h.skip (by simp) _).passWalk r).setResource r rfl rfl
  | check r => exact h.skip (by simp) _
  | recallLease i reason grace =>
    have h' : ∀ more, s.Working (more ++ rest) := h.skip (by simp)
    simp only [doWork, State.recallLease]
    split
    · exact h' []
    · rename_i l hl
      have posted : ∀ more body, (s.post l.holder body).Working (more ++ rest) :=
        fun more body => (h' more).of_tables rfl
      split
      · split
        · exact (posted [_] _).setLease hl rfl rfl
        · refine of_tables (s := (s.post l.holder _).setLease i _) ?_ rfl
          exact (posted [] _).setLease hl (by rfl) (by rfl)
      · exact h' []
  | endLease i cause => exact h.endLease
  | freeSlot i cause => exact h.freeSlot
  | starvedFrom index =>
    simp only [doWork]
    split <;> exact h.skip (by simp) _
  | endHolding r c cause =>
    simp only [doWork]
    split <;> exact h.skip (by simp) _
  | removeWaiting r c o =>
    have h' : ∀ more, s.Working (more ++ rest) := h.skip (by simp)
    simp only [doWork, State.removeWaitingStep]
    split
    · exact h' []
    · split
      · exact h' []
      · exact ((h' _).of_tables (t := s.giveBack c 2) rfl).freeWaiter _ _

theorem dropQueue (h : s.Working work) (r : ResourceId) : (s.dropQueue r).Working work := by
  unfold State.dropQueue
  generalize (s.resource r).queue = queue
  induction queue generalizing s with
  | nil => exact h
  | cons j queue ih =>
    refine ih ?_
    unfold State.dropWaiterOffline
    split
    · exact h
    · rename_i w _
      exact (h.of_tables (t := (s.post w.client _).giveBack w.client 1) rfl).freeWaiter _ _

end State.Working

/-- An admitted client has no claim on the resource yet (R30, R31). -/
theorem State.Working.noClaim {s : State} (h : s.Working []) {c : Client} {a : AcquireParams}
    (ha : s.admission c a = none) : ¬ s.holds a.resource c ∧ ∀ j, ¬ s.waitsIn a.resource c j := by
  have dup : s.duplicate a.resource c = false := by
    simp only [State.admission] at ha
    split_ifs at ha with _ _ _ _ hd
    simpa using hd
  simp only [State.duplicate, Bool.or_eq_false_iff] at dup
  obtain ⟨nohold, nowait⟩ := dup
  refine ⟨fun ⟨i, hi⟩ => ?_, fun j hj => ?_⟩
  · have := (h.standing _ _ i hi).resolve_right (by simp)
    rw [Resource.holders_get, this] at nohold
    cases nohold
  · obtain ⟨w, hw, hr, hc⟩ := hj
    have : (s.waitingSlot a.resource c).isSome = true :=
      State.waitingSlot_isSome.2 ⟨j, ((h.queues _).2 j).2 ⟨w, hw, hr⟩, w, hw, hc⟩
    rw [nowait] at this
    cases this

/-- Every event keeps the record laws. -/
theorem eventInvariant_working : EventInvariant fun work s => s.Working work where
  start _ _ h := h.mono (by simp)
  item := State.Working.item
  quiet _ _ e h := h.of_tables e
  session _ _ _ hl hw h := h.setSession hl hw
  lease _ _ _ _ hl hr h := h.setLease hl hr.resource hr.holder
  grant _ _ _ _ ha _ hi h :=
    h.beginLease _ _ _ (State.freeLeaseSlot_free hi) (h.noClaim ha).1 (h.noClaim ha).2
  queue s c a j ha hj h := by
    have queued : (s.enqueue j (a.waiter c s.now)).Working [] :=
      h.enqueue (State.freeWaiterSlot_free hj) (h.noClaim ha).1 (h.noClaim ha).2
    unfold State.queued
    dsimp only
    split
    · exact queued.setResource _ rfl rfl
    · exact queued
  freeWaiter _ j o h := h.freeWaiter j o
  online _ r _ h := h.setResource r rfl rfl
  offline s r _ h :=
    ((h.dropQueue r).of_tables (t := (s.dropQueue r).disarm (.resource r)) rfl).setResource r (by rfl) (by rfl)
  drain s r _ h := ((h.dropQueue r).setResource r (by rfl) (by rfl)).mono (by simp)
  unfence s r _ h := by
    have h' : ∀ work, s.Working work := fun _ => h.mono (by simp)
    simp only [State.settleOrIdle, State.enterSettling]
    split
    · exact (h' _).setResource r rfl rfl
    · refine State.Working.of_tables (s := s.setResource r _) ?_ rfl
      exact (h' _).setResource r (by rfl) (by rfl)
  unmark _ r _ h := (h.setResource r (by rfl) (by rfl)).mono (by simp)
  settled _ r _ h := (h.setResource r (by rfl) (by rfl)).mono (by simp)

/-! ### Device reset -/

@[simp] theorem reset_resource (r : ResourceId) : State.reset.resource r = Resource.atReset := by
  simp [State.resource, State.reset]

@[simp] theorem reset_leaseRecord (i : LeaseSlot) : State.reset.leaseRecord i = LeaseRecord.atReset := by
  simp [State.leaseRecord, State.reset]

@[simp] theorem reset_lease (i : LeaseSlot) : State.reset.lease i = none := by
  simp [State.lease, LeaseRecord.atReset]

@[simp] theorem reset_waiterRecord (j : WaiterSlot) : State.reset.waiterRecord j = WaiterRecord.atReset := by
  simp [State.waiterRecord, State.reset]

@[simp] theorem reset_waiter (j : WaiterSlot) : State.reset.waiter j = none := by
  simp [State.waiter, WaiterRecord.atReset]

theorem reset_session (c : Client) : State.reset.session c = Session.atReset c := by
  revert c; decide

@[simp] theorem reset_line (r : ResourceId) (c : Client) : State.reset.line r c = false := by
  simp [State.line, State.reset]

@[simp] theorem atReset_holder (c : Client) : Resource.atReset.holder c = none := by
  revert c; decide

/-- Right after device reset every table is empty and every line deasserted. -/
theorem reset_recordLaws : State.reset.RecordLaws := by
  have nohold : ∀ r c i, ¬ State.reset.holdsIn r c i := by simp [State.holdsIn]
  refine ⟨fun r c i => ?_, fun r => ?_, fun r c j hj => ?_, fun c => ?_, fun r c => ?_, rfl, [], [], rfl⟩
  · simp only [Resource.holders_get, reset_resource, atReset_holder, iff_false_right (nohold r c i)]
    simp
  · simp [Resource.atReset]
  · simp [State.waitsIn] at hj
  · simp [reset_session, Session.atReset]
  · simp only [reset_line, iff_false_right (fun ⟨i, hi⟩ => nohold r c i hi : ¬ State.reset.holds r c)]
    simp

/-- Settles O56: the laws hold within every event, but for leases whose slots are still to be freed and sets still held
back, and the event's end leaves none of these. -/
theorem stepKeepsRecordLaws : Obligations.StepKeepsRecordLaws := by
  intro s t hs ht
  have exec_keeps : ∀ (c : Instr) (s t : State), s.RecordLaws → exec c s = .next t → t.RecordLaws := by
    intro c s t hs ht
    by_cases hc : c = .deviceReset
    · subst hc
      cases ht
      exact reset_recordLaws.of_tables rfl
    · refine eventInvariant_working.exec hs.working (fun u h => h.recordLaws) (fun u v e h => h.of_tables e)
        (fun params => ?_) hs hc ht
      rcases configureResourceBody_cases params s.beginEvent with e | ⟨r, x, -, -, e⟩ <;> rw [e]
      · exact hs.working
      · exact hs.working.setResource r (by rfl) (by rfl)
  unfold step at ht
  split at ht
  · cases ht
    exact hs.of_tables s.refclk_tables
  · rename_i c rest _
    exact exec_keeps c { s with pending := rest } t (hs.of_tables rfl) ht

end Sys2Proof.Machine
end

section
/-!
SUPPORT. The removal of a resource's whole queue when it is taken offline (R72): what each reading of the state comes to
when waiters of one resource are removed one after another.
-/

namespace Sys2Proof.Machine

/-- These slots hold waiters for resource `r`, each once. -/
structure State.WaitFor (s : State) (r : ResourceId) (slots : List WaiterSlot) : Prop where
  nodup : slots.Nodup
  waiter : ∀ j ∈ slots, ∃ w, s.waiter j = some w ∧ w.resource = r

theorem State.QueuesAgree.waitFor {s : State} (h : s.QueuesAgree) (r : ResourceId) :
    s.WaitFor r (s.resource r).queue := ⟨(h r).1, fun j hj => ((h r).2 j).1 hj⟩

/-! ### The removal of one waiter -/

section
variable {s : State} {j : WaiterSlot} {w : Waiter}

theorem State.dropWaiterOffline_waiterRecord (h : s.waiter j = some w) (k : WaiterSlot) :
    (s.dropWaiterOffline j).waiterRecord k
      = if k = j then ⟨(s.waiterRecord j).incarnation + 1, some .offline, none⟩ else s.waiterRecord k := by
  simp [State.dropWaiterOffline_eq h, State.setWaiterRecord_waiterRecord]

theorem State.dropWaiterOffline_waiter (h : s.waiter j = some w) (k : WaiterSlot) :
    (s.dropWaiterOffline j).waiter k = if k = j then none else s.waiter k := by
  by_cases hk : k = j <;> simp [State.waiter, State.dropWaiterOffline_waiterRecord h, hk]

theorem State.dropWaiterOffline_resource (h : s.waiter j = some w) (k : ResourceId) :
    (s.dropWaiterOffline j).resource k = if k = w.resource then { s.resource k with
      queue := (s.resource k).queue.filter fun i => !decide (i = j) } else s.resource k := by
  by_cases hk : k = w.resource <;> simp [State.dropWaiterOffline_eq h, State.setResource_resource, hk]

theorem State.dropWaiterOffline_session (h : s.waiter j = some w) (c : Client) :
    (s.dropWaiterOffline j).session c = if c = w.client then (s.session c).loseWaiter else s.session c := by
  by_cases hc : c = w.client <;> simp [State.dropWaiterOffline_eq h, State.setSession_session, hc]

theorem State.dropWaiterOffline_box (h : s.waiter j = some w) (c : Client) :
    (s.dropWaiterOffline j).box c = if c = w.client then
      ((s.box c).post s.now (s.waitEndedNotice j w .offline)).giveBack 1 else s.box c := by
  by_cases hc : c = w.client <;> simp [State.dropWaiterOffline_eq h, State.setBox_box, hc]

@[simp] theorem State.dropWaiterOffline_leaseRecord (s : State) (j : WaiterSlot) (i : LeaseSlot) :
    (s.dropWaiterOffline j).leaseRecord i = s.leaseRecord i := by
  unfold State.dropWaiterOffline
  split
  · rfl
  · simp

@[simp] theorem State.dropWaiterOffline_now (s : State) (j : WaiterSlot) : (s.dropWaiterOffline j).now = s.now := by
  unfold State.dropWaiterOffline
  split
  · rfl
  · simp

@[simp] theorem State.dropWaiterOffline_gate (s : State) (j : WaiterSlot) : (s.dropWaiterOffline j).gate = s.gate := by
  unfold State.dropWaiterOffline
  split
  · rfl
  · simp

/-- All that the removal of one waiter reaches. -/
theorem State.dropWaiterOffline_frame (h : s.waiter j = some w) :
    s.Frame (s.dropWaiterOffline j)
      { resources := [w.resource], waiters := [j], sessions := [w.client], boxes := [w.client], owners := [.waiter j] } := by
  rw [State.dropWaiterOffline_eq h]
  refine ⟨rfl, rfl, fun _ => rfl, fun r hr => ?_, fun _ _ => rfl, fun k hk => ?_, fun c hc => ?_, fun c hc => ?_,
    fun _ _ => rfl, ?_, fun _ => rfl, rfl⟩
  · simp [State.setResource_resource, mt List.mem_singleton.2 hr]
  · simp [State.setWaiterRecord_waiterRecord, mt List.mem_singleton.2 hk]
  · simp [State.setSession_session, mt List.mem_singleton.2 hc]
  · simp [State.setBox_box, mt List.mem_singleton.2 hc]
  · exact State.filter_disarm _ _ _ fun x hx => by simp [hx]

/-- The other waiters stay where they are. -/
theorem State.WaitFor.drop {r : ResourceId} {slots : List WaiterSlot} (h : s.WaitFor r (j :: slots)) :
    (s.dropWaiterOffline j).WaitFor r slots := by
  obtain ⟨hj, nodup⟩ := List.nodup_cons.1 h.nodup
  obtain ⟨w, hw, -⟩ := h.waiter j (by simp)
  refine ⟨nodup, fun k hk => ?_⟩
  have hkj : k ≠ j := by rintro rfl; exact hj hk
  rw [State.dropWaiterOffline_waiter hw, if_neg hkj]
  exact h.waiter k (by simp [hk])

end

/-! ### The removal of all of them -/

/-- These waiters are removed one after another. -/
def State.dropWaiters (s : State) (slots : List WaiterSlot) : State := slots.foldl State.dropWaiterOffline s

theorem State.dropQueue_eq (s : State) (r : ResourceId) : s.dropQueue r = s.dropWaiters (s.resource r).queue := rfl

@[simp] theorem State.dropWaiters_nil (s : State) : s.dropWaiters [] = s := rfl

@[simp] theorem State.dropWaiters_cons (s : State) (j : WaiterSlot) (slots : List WaiterSlot) :
    s.dropWaiters (j :: slots) = (s.dropWaiterOffline j).dropWaiters slots := rfl

@[simp] theorem State.dropWaiters_leaseRecord (s : State) (slots : List WaiterSlot) (i : LeaseSlot) :
    (s.dropWaiters slots).leaseRecord i = s.leaseRecord i := by
  induction slots generalizing s with
  | nil => rfl
  | cons j slots ih => rw [State.dropWaiters_cons, ih, State.dropWaiterOffline_leaseRecord]

@[simp] theorem State.dropWaiters_lease (s : State) (slots : List WaiterSlot) (i : LeaseSlot) :
    (s.dropWaiters slots).lease i = s.lease i := by
  simp [State.lease]

@[simp] theorem State.dropWaiters_now (s : State) (slots : List WaiterSlot) : (s.dropWaiters slots).now = s.now := by
  induction slots generalizing s with
  | nil => rfl
  | cons j slots ih => rw [State.dropWaiters_cons, ih, State.dropWaiterOffline_now]

@[simp] theorem State.dropWaiters_gate (s : State) (slots : List WaiterSlot) : (s.dropWaiters slots).gate = s.gate := by
  induction slots generalizing s with
  | nil => rfl
  | cons j slots ih => rw [State.dropWaiters_cons, ih, State.dropWaiterOffline_gate]

section
variable {s : State} {r : ResourceId} {slots : List WaiterSlot}

theorem State.WaitFor.waiterRecord (h : s.WaitFor r slots) (k : WaiterSlot) : (s.dropWaiters slots).waiterRecord k
    = if k ∈ slots then ⟨(s.waiterRecord k).incarnation + 1, some .offline, none⟩ else s.waiterRecord k := by
  induction slots generalizing s with
  | nil => simp
  | cons j slots ih =>
    obtain ⟨hj, -⟩ := List.nodup_cons.1 h.nodup
    obtain ⟨w, hw, -⟩ := h.waiter j (by simp)
    rw [State.dropWaiters_cons, ih h.drop, State.dropWaiterOffline_waiterRecord hw]
    by_cases hk : k = j
    · subst hk; simp [hj]
    · simp [hk]

theorem State.WaitFor.resource (h : s.WaitFor r slots) (k : ResourceId) : (s.dropWaiters slots).resource k
    = if k = r then { s.resource k with queue := (s.resource k).queue.filter fun j => decide (j ∉ slots) }
      else s.resource k := by
  induction slots generalizing s with
  | nil => split <;> simp
  | cons j slots ih =>
    obtain ⟨w, hw, hr⟩ := h.waiter j (by simp)
    rw [State.dropWaiters_cons, ih h.drop, State.dropWaiterOffline_resource hw, hr]
    by_cases hk : k = r
    · simp only [hk, if_true, List.filter_filter]
      congr 1
      apply List.filter_congr
      intro i _
      by_cases hi : i = j <;> simp [hi]
    · simp [hk]

/-- The queue of a resource is gone when all its waiters are (R72). -/
theorem State.QueuesAgree.dropQueue_resource (h : s.QueuesAgree) (r k : ResourceId) :
    (s.dropQueue r).resource k = if k = r then { s.resource k with queue := [] } else s.resource k := by
  rw [State.dropQueue_eq, (h.waitFor r).resource]
  split
  · subst k; simp
  · rfl

theorem State.WaitFor.session (h : s.WaitFor r slots) (c : Client) : (s.dropWaiters slots).session c
    = { s.session c with
        waiterCount := (s.session c).waiterCount
          - slots.countP fun j => (s.waiter j).any fun w => decide (w.client = c) } := by
  induction slots generalizing s with
  | nil => simp
  | cons j slots ih =>
    obtain ⟨hj, -⟩ := List.nodup_cons.1 h.nodup
    obtain ⟨w, hw, -⟩ := h.waiter j (by simp)
    have rest : (slots.countP fun k => ((s.dropWaiterOffline j).waiter k).any fun w => decide (w.client = c))
        = slots.countP fun k => (s.waiter k).any fun w => decide (w.client = c) := by
      refine List.countP_congr fun k hk => ?_
      have : k ≠ j := by rintro rfl; exact hj hk
      rw [State.dropWaiterOffline_waiter hw, if_neg this]
    rw [State.dropWaiters_cons, ih h.drop, rest, State.dropWaiterOffline_session hw, List.countP_cons]
    by_cases hc : c = w.client
    · simp only [hc, if_true, Session.loseWaiter, hw, Option.any_some, decide_true]
      congr 1
      omega
    · have hc' : ¬ w.client = c := fun e => hc e.symm
      simp [hc, hc', hw]

/-- The WAIT_ENDED notices for client `c` when these waiters are removed, in their order (R72). -/
def State.endedNotices (s : State) (slots : List WaiterSlot) (c : Client) : List NoticeBody :=
  slots.filterMap fun j =>
    (s.waiter j).bind fun w => if w.client = c then some (s.waitEndedNotice j w .offline) else none

theorem State.offlineNotices_eq (s : State) (r : ResourceId) (c : Client) :
    s.offlineNotices r c = s.endedNotices (s.resource r).queue c := rfl

theorem State.WaitFor.box (h : s.WaitFor r slots) (c : Client) :
    (s.dropWaiters slots).box c = (s.box c).waitsEnded s.now (s.endedNotices slots c) := by
  induction slots generalizing s with
  | nil => rfl
  | cons j slots ih =>
    obtain ⟨hj, -⟩ := List.nodup_cons.1 h.nodup
    obtain ⟨w, hw, -⟩ := h.waiter j (by simp)
    have rest : (s.dropWaiterOffline j).endedNotices slots c = s.endedNotices slots c := by
      refine List.filterMap_congr fun k hk => ?_
      have : k ≠ j := by rintro rfl; exact hj hk
      simp only [State.dropWaiterOffline_waiter hw, if_neg this, State.waitEndedNotice, State.waiterHandle,
        State.dropWaiterOffline_waiterRecord hw]
    rw [State.dropWaiters_cons, ih h.drop, rest, State.dropWaiterOffline_box hw, State.dropWaiterOffline_now]
    by_cases hc : c = w.client
    · subst hc
      simp [State.endedNotices, hw, NoticeBox.waitsEnded]
    · have hc' : ¬ w.client = c := fun e => hc e.symm
      simp [State.endedNotices, hw, hc, hc']

/-- The records that the removal of these waiters for resource `r` reaches. -/
def waiterTouches (r : ResourceId) (slots : List WaiterSlot) : Touched where
  resources := [r]
  waiters := slots
  sessions := clients
  boxes := clients
  owners := slots.map .waiter

/-- All that the removal of waiters reaches. -/
theorem State.WaitFor.frame (h : s.WaitFor r slots) : s.Frame (s.dropWaiters slots) (waiterTouches r slots) := by
  induction slots generalizing s with
  | nil =>
    exact ⟨rfl, rfl, fun _ => rfl, fun _ _ => rfl, fun _ _ => rfl, fun _ _ => rfl, fun _ _ => rfl, fun _ _ => rfl,
      fun _ _ => rfl, rfl, fun _ => rfl, rfl⟩
  | cons j slots ih =>
    obtain ⟨w, hw, rfl⟩ := h.waiter j (by simp)
    refine State.Frame.trans
      (m := { resources := [w.resource], waiters := [j], sessions := [w.client], boxes := [w.client], owners := [.waiter j] })
      (n := waiterTouches w.resource slots) (k := waiterTouches w.resource (j :: slots))
      (State.dropWaiterOffline_frame hw) (ih h.drop) ?_ ?_ ?_ ?_ ?_ ?_ ?_ ?_ ?_
    all_goals simp [waiterTouches, mem_clients]

/-- The waiters removed have no entry left. -/
theorem State.WaitFor.entriesOf (h : s.WaitFor r slots) {j : WaiterSlot} (hj : j ∈ slots) :
    (s.dropWaiters slots).entriesOf (.waiter j) = [] := by
  induction slots generalizing s with
  | nil => cases hj
  | cons k slots ih =>
    obtain ⟨hk, -⟩ := List.nodup_cons.1 h.nodup
    rcases List.mem_cons.1 hj with rfl | hj
    · obtain ⟨w, hw, -⟩ := h.waiter j (by simp)
      have : Owner.waiter j ∉ slots.map Owner.waiter := by simpa using hk
      rw [State.dropWaiters_cons, h.drop.frame.entriesOf this, State.dropWaiterOffline_eq hw]
      exact State.entriesOf_disarm_self _ _
    · exact ih h.drop hj

end

end Sys2Proof.Machine
end

section
/-!
SUPPORT. The laws of the resource records within an event: a resource may wait in IDLE for a grant pass that is still to
come, and on a DRAINING resource a lease may be ACTIVE while its recall is still to come.
-/

namespace Sys2Proof.Machine

/-! ### One resource record (section 1.4, R4 to R6, R11, R13, R19) -/

/-- What a resource's state lets its record hold; `pass` says that a grant pass for it is still to come. -/
structure Resource.Sound (x : Resource) (pass : Prop) : Prop where
  free : x.state ≠ .held → x.state ≠ .draining → x.holderCount = 0
  taken : x.state = .held ∨ x.state = .draining → 1 ≤ x.holderCount
  room : x.holderCount ≤ x.config.maxShared
  empty : x.state = .offline ∨ x.state = .draining → x.queue = []
  fence : x.fenceMark = true → x.state = .held
  starved : x.starved = true → x.state ≠ .offline ∧ x.state ≠ .draining
  idle : x.state = .idle → x.queue ≠ [] → x.starved = true ∨ pass
  config : x.config.inRange = true

theorem ResourceConfig.inRange_iff {c : ResourceConfig} : c.inRange = true ↔
    1 ≤ c.maxShared ∧ c.maxShared ≤ 4 ∧ (c.sharing = .exclusiveOnly → c.maxShared = 1) ∧
      1 ≤ c.defaultTerm.toNat ∧ c.defaultTerm.toNat ≤ c.maxTerm.toNat ∧ 1 ≤ c.sliceTicks.toNat := by
  have : (c.sharing = .sharedAllowed ∨ c.maxShared = 1) ↔ (c.sharing = .exclusiveOnly → c.maxShared = 1) := by
    cases c.sharing <;> simp
  simp only [ResourceConfig.inRange, Bool.and_eq_true, Bool.or_eq_true, decide_eq_true_eq, this]
  tauto

/-- All that a HELD or DRAINING resource's own step can come to when a lease has left it (R9 to R11). -/
theorem Resource.left_cases (y : Resource) (cause : EndCause) (now : Tick) (h : y.state = .held ∨ y.state = .draining) :
    (y.state = .draining ∧ y.holderCount = 0 ∧ (y.left cause now).state = .offline ∧
      (y.left cause now).fenceMark = false ∧ (y.left cause now).starved = false) ∨
    (y.state = .draining ∧ y.holderCount ≠ 0 ∧ (y.left cause now).state = .draining ∧
      (y.left cause now).fenceMark = y.fenceMark ∧ (y.left cause now).starved = y.starved) ∨
    (y.state = .held ∧ y.holderCount ≠ 0 ∧ (y.left cause now).state = .held ∧ (y.left cause now).starved = y.starved) ∨
    (y.state = .held ∧ y.holderCount = 0 ∧
      ((y.left cause now).state = .fenced ∨ (y.left cause now).state = .idle ∨ (y.left cause now).state = .settling) ∧
      (y.left cause now).fenceMark = false ∧ (y.left cause now).starved = y.starved) := by
  rcases h with h | h <;> by_cases hc : y.holderCount = 0
  · rcases Bool.eq_false_or_eq_true
      (y.fenceMark || (cause.isForced && decide (y.config.forcedAction = .fence))) with hm | hm
    · simp [Resource.left, h, hc, hm]
    · have hf : y.fenceMark = false := (Bool.or_eq_false_iff.1 hm).1
      by_cases hs : y.config.settle = 0
      · simp only [Resource.left, h, hc, hm, hs]; simp [hf]
      · simp only [Resource.left, h, hc, hm, hs]; simp [hf]
  · simp [Resource.left, h, hc]
  · simp [Resource.left, h, hc]
  · simp [Resource.left, h, hc]

namespace Resource.Sound

variable {x y : Resource} {pass pass' : Prop}

theorem mono (h : x.Sound pass) (hp : pass → pass') : x.Sound pass' :=
  { h with idle := fun h1 h2 => (h.idle h1 h2).imp_right hp }

theorem holder_of_ne (h : x.Sound pass) {c : Client} {i : LeaseSlot} (hc : x.holder c = some i) :
    x.state = .held ∨ x.state = .draining := by
  by_contra hn
  have := Resource.holderCount_eq_zero.1 (h.free (fun e => hn (.inl e)) fun e => hn (.inr e)) c
  rw [hc] at this
  cases this

theorem unmarked (h : x.Sound pass) (hs : x.state ≠ .held) : x.fenceMark = false := by
  cases hf : x.fenceMark
  · rfl
  · exact absurd (h.fence hf) hs

/-- Waiters may leave at any time. -/
theorem fewerWaiters (h : x.Sound pass) (f : WaiterSlot → Bool) : ({ x with queue := x.queue.filter f } : Resource).Sound pass where
  __ := h
  free := h.free
  taken := h.taken
  room := h.room
  empty hs := by simp [h.empty hs]
  idle hs hq := h.idle hs fun e => hq (by simp [e])

/-- A lease joins an IDLE or HELD resource that has room for it (R8, R62). -/
theorem join (h : x.Sound pass) {c : Client} {i : LeaseSlot} (hs : x.state = .idle ∨ x.state = .held)
    (hc : x.holder c = none) (hr : x.holderCount < x.config.maxShared)
    (hy : y = { x with
      holders := x.holders.set c (some i)
      state := if x.state = .idle then .held else x.state }) : y.Sound pass := by
  have held : y.state = .held := by
    rcases hs with hs | hs <;> simp [hy, hs]
  have count : y.holderCount = x.holderCount + 1 := Resource.holderCount_set_some (by rw [hy]) hc
  have config : y.config = x.config := by rw [hy]
  refine ⟨fun ne => absurd held ne, fun _ => by omega, by rw [config]; omega, fun off => ?_, fun _ => held, fun _ => ?_,
    fun idle => ?_, by rw [config]; exact h.config⟩
  · simp [held] at off
  · simp [held]
  · simp [held] at idle

/-- The resource's own step when a lease has left it (R9 to R11): a grant pass is to come where it is left IDLE. -/
theorem left (h : x.Sound pass) {c : Client} {i : LeaseSlot} (hy : y = { x with holders := x.holders.set c none })
    (hc : x.holder c = some i) (cause : EndCause) (now : Tick) (hp : (y.left cause now).state = .idle → pass') :
    (y.left cause now).Sound pass' := by
  have state := h.holder_of_ne hc
  have count : x.holderCount = (y.left cause now).holderCount + 1 :=
    Resource.holderCount_set_none ((y.left_holders cause now).trans (by rw [hy])) hc
  have county : y.holderCount = (y.left cause now).holderCount := Resource.holderCount_congr (y.left_holders cause now).symm
  have config : (y.left cause now).config = x.config := (y.left_config cause now).trans (by rw [hy])
  have queue : (y.left cause now).queue = x.queue := (y.left_queue cause now).trans (by rw [hy])
  have ystate : y.state = x.state := by rw [hy]
  have ystarved : y.starved = x.starved := by rw [hy]
  have yfence : y.fenceMark = x.fenceMark := by rw [hy]
  have hroom := h.room
  have hempty := h.empty
  have hstarved := h.starved
  have hfence := h.fence
  have hcases := y.left_cases cause now (by rw [ystate]; exact state)
  rw [ystate, ystarved, yfence, county] at hcases
  have room : (y.left cause now).holderCount ≤ (y.left cause now).config.maxShared := by rw [config]; omega
  have inRange : (y.left cause now).config.inRange = true := by rw [config]; exact h.config
  clear hroom count county hy ystate ystarved yfence config hc
  generalize y.left cause now = z at *
  rcases hcases with ⟨e1, e2, e3, e4, e5⟩ | ⟨e1, e2, e3, e4, e5⟩ | ⟨e1, e2, e3, e4⟩ | ⟨e1, e2, e3, e4, e5⟩
  · constructor <;> simp_all
  · constructor <;> simp_all [Nat.one_le_iff_ne_zero]
  · constructor <;> simp_all [Nat.one_le_iff_ne_zero]
  · rcases e3 with e3 | e3 | e3 <;> constructor <;> simp_all

end Resource.Sound

end Sys2Proof.Machine
end

section
/-!
SUPPORT. The resource laws (section 1.4, R5, R6, R13, R38, R39, R57) within an event, through every item of work and every
event's first step, and so through every step.
-/

namespace Sys2Proof.Machine

/-- The laws of the resource records within an event that has this work still to do. -/
structure State.Governed (work : List Work) (s : State) : Prop where
  sound : ∀ r, (s.resource r).Sound (.pass r ∈ work)
  drains : ∀ r, (s.resource r).state = .draining → ∀ i l, s.lease i = some l → l.resource = r → l.state = .active →
    ∃ reason grace, .recallLease i reason grace ∈ work
  alone : ∀ r c i l, (s.resource r).holder c = some i → s.lease i = some l → l.mode = .exclusive →
    (s.resource r).holderCount = 1
  policy : s.PolicyLaw
  order : s.QueueOrder

/-! ### Between events -/

theorem State.ResourceLaws.governed {s : State} (h : s.ResourceLaws) : s.Governed [] := by
  refine ⟨fun r => ?_, fun r hr i l hl e ha => ?_, fun r c i l hi hl hm => ?_, h.policy, h.order⟩
  · have law := h.resource r
    obtain ⟨hfence, hstarved⟩ := h.marks r
    have hidle := h.idle r
    have hconfig := h.config r
    have hmax := (ResourceConfig.inRange_iff.1 hconfig).1
    generalize s.resource r = x at *
    cases hs : x.state <;> simp only [hs] at law <;> constructor <;> simp_all
  · have law := h.resource r
    simp only [hr] at law
    exact absurd ha (law.2.2.2 i l hl e)
  · obtain ⟨l', hl', rfl, -⟩ := (h.holders r c i).1 hi
    cases hl.symm.trans hl'
    exact h.exclusive i l hl hm

theorem State.Governed.resourceLaws {s : State} (hw : s.Working []) (h : s.Governed []) : s.endEvent.ResourceLaws := by
  have drained : ∀ r, (s.resource r).state = .draining → ∀ i, ∀ l ∈ s.lease i, l.resource = r → l.state ≠ .active := by
    intro r hr i l hl e ha
    obtain ⟨_, _, hm⟩ := h.drains r hr i l hl e ha
    cases hm
  refine ⟨hw.recordLaws, fun r => ?_, fun i l hl hm => ?_, fun r => ⟨(h.sound r).fence, (h.sound r).starved⟩,
    fun r h1 h2 => ((h.sound r).idle h1 h2).resolve_right (by simp), h.policy, fun r => (h.sound r).config, h.order⟩
  · have sound := h.sound r
    have drained := drained r
    simp only [State.endEvent_resource, State.endEvent_lease]
    obtain ⟨free, taken, room, empty, -⟩ := sound
    cases hs : (s.resource r).state
    case draining => exact ⟨taken (.inr hs), room, empty (.inr hs), drained hs⟩
    all_goals simp_all
  · have := (hw.standing l.resource l.holder i ⟨l, hl, rfl, rfl⟩).resolve_right (by simp)
    exact h.alone _ _ i l this hl hm

namespace State.Governed

variable {s t : State} {work work' rest : List Work}

/-! ### Changes that the laws do not speak of -/

/-- Only the passes and the recalls still to come count in the list. -/
theorem mono (h : s.Governed work) (passes : ∀ r, .pass r ∈ work → .pass r ∈ work')
    (recalls : ∀ i reason grace, .recallLease i reason grace ∈ work → .recallLease i reason grace ∈ work') :
    s.Governed work' where
  __ := h
  sound r := (h.sound r).mono (passes r)
  drains r hr i l hl e ha := by
    obtain ⟨reason, grace, hm⟩ := h.drains r hr i l hl e ha
    exact ⟨reason, grace, recalls i reason grace hm⟩

/-- An item that is no pass and no recall may leave the list. -/
theorem skip {w : Work} (h : s.Governed (w :: rest)) (hp : ∀ r, w ≠ .pass r)
    (hr : ∀ i reason grace, w ≠ .recallLease i reason grace) (more : List Work) : s.Governed (more ++ rest) :=
  h.mono (fun r hm => List.mem_append_right _ ((List.mem_cons.1 hm).resolve_left fun e => hp r e.symm))
    fun i reason grace hm => List.mem_append_right _ ((List.mem_cons.1 hm).resolve_left fun e => hr i reason grace e.symm)

theorem start (h : s.Governed []) (work : List Work) : s.Governed work := h.mono (by simp) (by simp)

/-- A step that keeps every resource, every lease and every waiter. -/
theorem of_same (h : s.Governed work) (resource : ∀ r, t.resource r = s.resource r) (lease : ∀ i, t.lease i = s.lease i)
    (waiter : ∀ j, t.waiter j = s.waiter j) : t.Governed work := by
  obtain ⟨h1, h2, h3, h4, h5⟩ := h
  refine ⟨by simpa only [resource] using h1, by simpa only [resource, lease] using h2,
    by simpa only [resource, lease] using h3, ?_, ?_⟩
  · simpa only [State.PolicyLaw, resource, lease] using h4
  · simpa only [State.QueueOrder, resource, waiter] using h5

theorem of_tables (h : s.Governed work) (e : t.tables = s.tables) : t.Governed work := by
  simp only [State.tables, Prod.mk.injEq] at e
  obtain ⟨e1, e2, e3, -, -⟩ := e
  exact h.of_same (fun r => by simp only [State.resource, e1]) (fun i => by simp only [State.lease, State.leaseRecord, e2])
    fun j => by simp only [State.waiter, State.waiterRecord, e3]

/-! ### One resource's record -/

/-- A step of one resource's record that keeps its queue, while the leases stay. -/
theorem of_resource (h : s.Governed work) (r : ResourceId) (lease : ∀ i, t.lease i = s.lease i)
    (waiter : ∀ j, t.waiter j = s.waiter j) (others : ∀ k, k ≠ r → t.resource k = s.resource k)
    (queue : (t.resource r).queue = (s.resource r).queue) (sound : (t.resource r).Sound (.pass r ∈ work'))
    (alone : ∀ c i l, (t.resource r).holder c = some i → s.lease i = some l → l.mode = .exclusive →
      (t.resource r).holderCount = 1)
    (drains : (t.resource r).state = .draining → ∀ i l, s.lease i = some l → l.resource = r → l.state = .active →
      ∃ reason grace, .recallLease i reason grace ∈ work')
    (policy : ∀ i l, s.lease i = some l → l.resource = r → (t.resource r).config.policy = (s.resource r).config.policy)
    (passes : ∀ k, k ≠ r → .pass k ∈ work → .pass k ∈ work')
    (recalls : ∀ i reason grace, .recallLease i reason grace ∈ work → .recallLease i reason grace ∈ work') :
    t.Governed work' := by
  refine ⟨fun k => ?_, fun k hk i l hl e ha => ?_, fun k c i l hi hl hm => ?_, fun i l hl => ?_, fun k => ?_⟩
  · by_cases hkr : k = r
    · subst hkr; exact sound
    · rw [others k hkr]
      exact (h.sound k).mono (passes k hkr)
  · rw [lease] at hl
    by_cases hkr : k = r
    · subst hkr; exact drains hk i l hl e ha
    · rw [others k hkr] at hk
      obtain ⟨reason, grace, hm⟩ := h.drains k hk i l hl e ha
      exact ⟨reason, grace, recalls i reason grace hm⟩
  · rw [lease] at hl
    by_cases hkr : k = r
    · subst hkr; exact alone c i l hi hl hm
    · rw [others k hkr] at hi ⊢
      exact h.alone k c i l hi hl hm
  · rw [Option.mem_def, lease] at hl
    have old := h.policy i l hl
    by_cases hkr : l.resource = r
    · rw [hkr, policy i l hl hkr, ← hkr]
      exact old
    · rw [others _ hkr]
      exact old
  · have hq : (t.resource k).queue = (s.resource k).queue := by
      by_cases hkr : k = r
      · subst hkr; exact queue
      · rw [others k hkr]
    simp only [hq, waiter]
    exact h.order k

/-- A resource's record is written, its holders and its queue as they were. -/
theorem setResource (h : s.Governed work) (r : ResourceId) {x : Resource} (holders : x.holders = (s.resource r).holders)
    (queue : x.queue = (s.resource r).queue) (sound : x.Sound (.pass r ∈ work'))
    (drains : x.state = .draining → ∀ i l, s.lease i = some l → l.resource = r → l.state = .active →
      ∃ reason grace, .recallLease i reason grace ∈ work')
    (policy : ∀ i l, s.lease i = some l → l.resource = r → x.config.policy = (s.resource r).config.policy)
    (passes : ∀ k, k ≠ r → .pass k ∈ work → .pass k ∈ work')
    (recalls : ∀ i reason grace, .recallLease i reason grace ∈ work → .recallLease i reason grace ∈ work') :
    (s.setResource r x).Governed work' := by
  refine h.of_resource (t := s.setResource r x) r (fun _ => rfl) (fun _ => rfl)
    (fun k hk => s.setResource_resource_of_ne r k x hk) ?_ ?_ ?_ ?_ ?_ passes recalls <;>
    simp only [State.setResource_resource_self]
  · exact queue
  · exact sound
  · intro c i l hi hl hm
    rw [Resource.holder_congr holders] at hi
    rw [Resource.holderCount_congr holders]
    exact h.alone r c i l hi hl hm
  · exact drains
  · exact policy

/-! ### Leases and waiters -/

/-- A lease is rewritten in place. -/
theorem setLease (h : s.Governed work) {i : LeaseSlot} {l l' : Lease} (hl : s.lease i = some l)
    (hr : l.RevisedTo l' (s.resource l.resource).config) (passes : ∀ r, .pass r ∈ work → .pass r ∈ work')
    (recalls : ∀ k reason grace, .recallLease k reason grace ∈ work →
      (k = i ∧ l'.state ≠ .active) ∨ .recallLease k reason grace ∈ work') : (s.setLease i l').Governed work' := by
  have before : ∀ k l'', (s.setLease i l').lease k = some l'' → (k = i ∧ l'' = l') ∨ (k ≠ i ∧ s.lease k = some l'') := by
    intro k l'' hk
    rw [State.setLease_lease] at hk
    split at hk
    · cases hk; exact .inl ⟨‹_›, rfl⟩
    · exact .inr ⟨‹_›, hk⟩
  refine ⟨fun r => (h.sound r).mono (passes r), fun r hd k l'' hk e ha => ?_, fun r c k l'' hc hk hm => ?_,
    fun k l'' hk => ?_, h.order⟩
  · have old : ∃ reason grace, .recallLease k reason grace ∈ work ∧ (k = i → l'.state = .active) := by
      rcases before k l'' hk with ⟨rfl, rfl⟩ | ⟨hki, hk⟩
      · obtain ⟨reason, grace, hm⟩ := h.drains r hd k l hl (hr.resource ▸ e) (hr.state ha)
        exact ⟨reason, grace, hm, fun _ => ha⟩
      · obtain ⟨reason, grace, hm⟩ := h.drains r hd k l'' hk e ha
        exact ⟨reason, grace, hm, fun e => absurd e hki⟩
    obtain ⟨reason, grace, hm, hact⟩ := old
    refine ⟨reason, grace, (recalls k reason grace hm).resolve_left fun ⟨e, hn⟩ => hn (hact e)⟩
  · rcases before k l'' hk with ⟨rfl, rfl⟩ | ⟨-, hk⟩
    · refine h.alone r c k l hc hl ?_
      rcases hr.mode with e | e
      · rw [← e]; exact hm
      · rw [hm] at e; cases e
    · exact h.alone r c k l'' hc hk hm
  · rcases before k l'' hk with ⟨rfl, rfl⟩ | ⟨-, hk⟩
    · obtain ⟨h1, h2⟩ := h.policy k l hl
      rw [State.setLease_resource, hr.resource]
      rcases hr.phase with e | e | ⟨e1, e2⟩ | ⟨e, hp⟩
      · rw [e]; exact ⟨h1, h2⟩
      · rw [e]; simp
      · rw [e2]; exact ⟨by simp, fun _ => h2 (.inl e1)⟩
      · exact ⟨fun e' => by simp [e'] at e, fun _ => hp⟩
    · exact h.policy k l'' hk

/-- A lease slot that is freed takes its lease out of the laws. -/
theorem freeLease (h : s.Governed work) (i : LeaseSlot) (cause : EndCause) : (s.freeLease i cause).Governed work := by
  refine ⟨fun r => ?_, fun r hd k l hk => ?_, fun r c k l hc hk => ?_, fun k l hk => ?_, fun r => ?_⟩
  · rw [State.freeLease_resource]; exact h.sound r
  · rw [State.freeLease_resource] at hd
    exact h.drains r hd k l (State.lease_of_freeLease cause hk)
  · rw [State.freeLease_resource] at hc ⊢
    exact h.alone r c k l hc (State.lease_of_freeLease cause hk)
  · rw [State.freeLease_resource]
    exact h.policy k l (State.lease_of_freeLease cause hk)
  · simp only [State.freeLease_resource, State.freeLease_waiter]
    exact h.order r

/-- A waiter that is freed leaves its queue. -/
theorem freeWaiter (h : s.Governed work) (j : WaiterSlot) (o : Outcome) : (s.freeWaiter j o).Governed work := by
  have cases := s.freeWaiter_resource_cases j o
  have holders : ∀ r, ((s.freeWaiter j o).resource r).holders = (s.resource r).holders := s.freeWaiter_holders j o
  have state : ∀ r, ((s.freeWaiter j o).resource r).state = (s.resource r).state := by
    intro r; rcases cases r with e | e <;> rw [e]
  have config : ∀ r, ((s.freeWaiter j o).resource r).config = (s.resource r).config := by
    intro r; rcases cases r with e | e <;> rw [e]
  refine ⟨fun r => ?_, fun r hd k l hk => ?_, fun r c k l hc hk => ?_, fun k l hk => ?_, fun r => ?_⟩
  · rcases cases r with e | e <;> rw [e]
    · exact h.sound r
    · exact (h.sound r).fewerWaiters _
  · rw [state] at hd
    rw [State.freeWaiter_lease] at hk
    exact h.drains r hd k l hk
  · rw [Resource.holder_congr (holders r)] at hc
    rw [State.freeWaiter_lease] at hk
    rw [Resource.holderCount_congr (holders r)]
    exact h.alone r c k l hc hk
  · rw [State.freeWaiter_lease] at hk
    rw [config]
    exact h.policy k l hk
  · have order : ((s.freeWaiter j o).resource r).queue.Pairwise fun a b =>
        ∀ v ∈ s.waiter a, ∀ w ∈ s.waiter b, w.urgency ≤ v.urgency := by
      rcases cases r with e | e <;> rw [e]
      · exact h.order r
      · exact (h.order r).filter _
    have sub : ∀ k v, v ∈ (s.freeWaiter j o).waiter k → v ∈ s.waiter k := by
      intro k v hv
      rw [State.freeWaiter_waiter] at hv
      split at hv
      · cases hv
      · exact hv
    exact order.imp fun hab v hv w hw => hab v (sub _ v hv) w (sub _ w hw)

/-- A lease begins on an IDLE or HELD resource whose holder set admits it (R32, R62). -/
theorem beginLease (h : s.Governed work) (hw : s.Working work) {i : LeaseSlot} {r : ResourceId} {c : Client} {m : Mode}
    (u : Urgency) (now : Tick) (term : Half) (hs : (s.resource r).state = .idle ∨ (s.resource r).state = .held)
    (hi : s.lease i = none) (hc : (s.resource r).holder c = none) (hm : s.compatible r m = true)
    (hr : s.hasRoom r = true) :
    (s.beginLease i r c m u (grantInterval (s.resource r).config now term)).Governed work := by
  generalize hiv : grantInterval (s.resource r).config now term = iv
  have hroom : (s.resource r).holderCount < (s.resource r).config.maxShared := by simpa [State.hasRoom] using hr
  have held : ((s.beginLease i r c m u iv).resource r).state = .held := by
    rw [State.beginLease_resource, if_pos rfl]
    rcases hs with hs | hs <;> simp [hs]
  have others : ∀ k, k ≠ r → (s.beginLease i r c m u iv).resource k = s.resource k := fun k hk => by simp [hk]
  have holders : ((s.beginLease i r c m u iv).resource r).holders = (s.resource r).holders.set c (some i) := by simp
  have config : ∀ k, ((s.beginLease i r c m u iv).resource k).config = (s.resource k).config := by
    intro k
    rw [State.beginLease_resource]
    split
    · subst k; rfl
    · rfl
  -- a slot that stands in a holder set is in use, so it is not the new lease's
  have stands : ∀ k d i', (s.resource k).holder d = some i' → i' ≠ i := by
    rintro k d i' hk rfl
    obtain ⟨l, hl, -⟩ := hw.named k d i' hk
    rw [hi] at hl; cases hl
  refine ⟨fun k => ?_, fun k hd i' l hl e ha => ?_, fun k d i' l hd hl he => ?_, fun i' l hl => ?_, fun k => ?_⟩
  · by_cases hk : k = r
    · subst hk
      exact (h.sound k).join hs hc hroom (by rw [State.beginLease_resource, if_pos rfl])
    · rw [others k hk]; exact h.sound k
  · have hk : k ≠ r := by rintro rfl; rw [held] at hd; cases hd
    rw [others k hk] at hd
    rw [State.beginLease_lease] at hl
    split at hl
    · cases hl; exact absurd e.symm hk
    · exact h.drains k hd i' l hl e ha
  · by_cases hk : k = r
    · subst hk
      rw [Resource.holderCount_set_some holders hc]
      rw [Resource.holder_set holders] at hd
      -- an EXCLUSIVE lease among the holders or beginning means that the set was empty
      suffices (s.resource k).holderCount = 0 by omega
      cases m with
      | exclusive => simpa [State.compatible] using hm
      | shared =>
        exfalso
        split at hd
        · cases hd
          rw [State.beginLease_lease, if_pos rfl] at hl
          cases hl
          cases he
        · rw [State.beginLease_lease, if_neg (stands k d i' hd)] at hl
          have := State.allShared_iff.1 hm d i' hd l hl
          rw [he] at this
          cases this
    · rw [others k hk] at hd ⊢
      rw [State.beginLease_lease, if_neg (stands k d i' hd)] at hl
      exact h.alone k d i' l hd hl he
  · rw [config]
    rw [Option.mem_def, State.beginLease_lease] at hl
    split at hl
    · cases hl
      dsimp only
      subst hiv
      cases hp : (s.resource r).config.policy with
      | term =>
        simp only [grantInterval, hp, termInterval]
        split_ifs <;> simp
      | sliced => simp [grantInterval, hp, sliceInterval]
    · exact h.policy i' l hl
  · have : ((s.beginLease i r c m u iv).resource k).queue = (s.resource k).queue := by
      rw [State.beginLease_resource]
      split
      · subst k; rfl
      · rfl
    simp only [this, State.beginLease_waiter]
    exact h.order k

end State.Governed

end Sys2Proof.Machine
end

section
/-! The resource laws through every item of work and every event's first step, and so through every step. -/

namespace Sys2Proof.Machine

namespace State.Governed

variable {s t : State} {work rest : List Work}

/-! ### The grant pass (R62 to R64) -/

/-- A waiter that the holder set admits is granted (R63). -/
theorem grantWaiter (h : s.Governed work) (hw : s.Working work) {j : WaiterSlot} {w : Waiter} {i : LeaseSlot}
    (hj : s.waiter j = some w) (hs : (s.resource w.resource).state = .idle ∨ (s.resource w.resource).state = .held)
    (hi : s.lease i = none) (hm : s.compatible w.resource w.mode = true) (hr : s.hasRoom w.resource = true) :
    (s.grantWaiter j w i).Governed work := by
  have nohold : (s.resource w.resource).holder w.client = none := by
    by_contra hn
    obtain ⟨k, hk⟩ := Option.ne_none_iff_exists'.1 hn
    exact (hw.oneClaim _ _ j ⟨w, hj, rfl, rfl⟩).1 ⟨k, hw.named _ _ k hk⟩
  simp only [State.grantWaiter]
  refine freeWaiter ?_ _ _
  exact (h.of_tables (t := s.post w.client _) rfl).beginLease (hw.of_tables rfl) w.urgency s.now w.term hs hi nohold hm hr

/-- What a grant leaves of the resource it is made on: HELD, and its queue without its head. -/
theorem grantWaiter_head {j : WaiterSlot} {w : Waiter} (i : LeaseSlot) {queue : List WaiterSlot} (hw : s.QueuesAgree)
    (hj : s.waiter j = some w) (hq : (s.resource w.resource).queue = j :: queue)
    (hs : (s.resource w.resource).state = .idle ∨ (s.resource w.resource).state = .held) :
    ((s.grantWaiter j w i).resource w.resource).state = .held ∧
      ((s.grantWaiter j w i).resource w.resource).queue = queue := by
  have nodup := (hw w.resource).1
  rw [hq, List.nodup_cons] at nodup
  rw [State.grantWaiter_resource i hj, if_pos rfl]
  refine ⟨by rcases hs with hs | hs <;> simp [hs], ?_⟩
  have rest : queue.filter (fun k => !decide (k = j)) = queue := by
    rw [List.filter_eq_self]
    intro k hk
    have : k ≠ j := by rintro rfl; exact nodup.1 hk
    simpa using this
  simp [hq, rest]

/-- The walk of a grant pass keeps the laws, and leaves an IDLE resource's queue standing only for want of a slot. -/
theorem walkQueue (r : ResourceId) (queue : List WaiterSlot) : ∀ (s : State) (n : Nat), s.Working work → s.Governed work →
    (s.resource r).state = .idle ∨ (s.resource r).state = .held → (s.resource r).queue = queue →
    (walkQueue r queue s n).state.Governed work ∧
    (((walkQueue r queue s n).state.resource r).state = .idle ∨ ((walkQueue r queue s n).state.resource r).state = .held) ∧
    (((walkQueue r queue s n).state.resource r).state = .idle →
      ((walkQueue r queue s n).state.resource r).queue ≠ [] → (walkQueue r queue s n).starved = true) := by
  induction queue with
  | nil => exact fun s n _ h hs hq => ⟨h, hs, fun _ hn => absurd hq hn⟩
  | cons j queue ih =>
    intro s n hw h hs hq
    obtain ⟨w, hj, rfl⟩ := hw.waiter_of_queue (j := j) (r := r) (by simp [hq])
    unfold Machine.walkQueue
    simp only [hj]
    split
    · rename_i hadmit
      obtain ⟨hm, hr⟩ := Bool.and_eq_true_iff.1 hadmit
      split
      · exact ⟨h, hs, fun _ _ => rfl⟩
      · rename_i i hfree
        have hi := State.freeLeaseSlot_free hfree
        obtain ⟨state, queue⟩ := grantWaiter_head i hw.queues hj hq hs
        exact ih _ _ (hw.grantWaiter hj hi) (h.grantWaiter hw hj hs hi hm hr) (.inr state) queue
    · rename_i hadmit
      refine ⟨h, hs, fun hidle _ => ?_⟩
      -- an IDLE resource has no holder, so it admits every head
      have sound := h.sound w.resource
      have free : (s.resource w.resource).holderCount = 0 := sound.free (by simp [hidle]) (by simp [hidle])
      have max := (ResourceConfig.inRange_iff.1 sound.config).1
      have compatible : s.compatible w.resource w.mode = true := by
        cases hm : w.mode with
        | exclusive => simp [State.compatible, free]
        | shared =>
          simp only [State.compatible]
          refine State.allShared_iff.2 fun c i hi => ?_
          rw [Resource.holders_get, Resource.holderCount_eq_zero.1 free c] at hi
          cases hi
      have room : s.hasRoom w.resource = true := by simp [State.hasRoom, free]; omega
      exact absurd (by simp [compatible, room]) hadmit

theorem pass {r : ResourceId} (hw : s.Working (.pass r :: rest)) (h : s.Governed (.pass r :: rest)) :
    (doWork (.pass r) s).1.Governed ((doWork (.pass r) s).2 ++ rest) := by
  have key : (s.passWalk r).state.Governed (.pass r :: rest) ∧
      ((s.passWalk r).starved = true →
        ((s.passWalk r).state.resource r).state = .idle ∨ ((s.passWalk r).state.resource r).state = .held) ∧
      (((s.passWalk r).state.resource r).state = .idle → ((s.passWalk r).state.resource r).queue ≠ [] →
        (s.passWalk r).starved = true) := by
    unfold State.passWalk
    split
    · rename_i hg
      have hs : (s.resource r).state = .idle ∨ (s.resource r).state = .held := by
        simp only [Resource.grantable, Bool.and_eq_true, Bool.or_eq_true, decide_eq_true_eq] at hg
        exact hg.1
      obtain ⟨h1, h2, h3⟩ := walkQueue r _ s 0 hw h hs rfl
      exact ⟨h1, fun _ => h2, h3⟩
    · rename_i hg
      refine ⟨h, nofun, fun hidle _ => absurd ?_ hg⟩
      have := (h.sound r).unmarked (by simp [hidle])
      simp [Resource.grantable, hidle, this]
  simp only [doWork, State.grantPass]
  generalize s.passWalk r = walk at key
  obtain ⟨hg, hstarved, hidle⟩ := key
  have sound := hg.sound r
  refine hg.setResource r (by rfl) (by rfl) ?_ ?_ (fun _ _ _ _ => by rfl) ?_ ?_
  · exact { sound with
      free := sound.free
      taken := sound.taken
      room := sound.room
      starved := fun e => by rcases hstarved e with hs | hs <;> simp [hs]
      idle := fun h1 h2 => .inl (hidle h1 h2) }
  · intro hd i l hl e ha
    obtain ⟨reason, grace, hm⟩ := hg.drains r hd i l hl e ha
    exact ⟨reason, grace, List.mem_append_right _ (by simpa using hm)⟩
  · intro k hk hm
    exact List.mem_append_right _ ((List.mem_cons.1 hm).resolve_left fun e => hk (by cases e; rfl))
  · intro i reason grace hm
    exact List.mem_append_right _ (by simpa using hm)

/-! ### The end of a lease (R9 to R11) -/

theorem endLease {i : LeaseSlot} {cause : EndCause} (h : s.Governed (.endLease i cause :: rest)) :
    (doWork (.endLease i cause) s).1.Governed ((doWork (.endLease i cause) s).2 ++ rest) := by
  have h' : s.Governed rest := h.skip (by simp) (by simp) []
  simp only [doWork, State.endLeaseStep]
  split
  · exact h'
  · rename_i l hl
    split
    · rename_i hs
      have hi := State.stands_iff.1 hs
      have sound := h'.sound l.resource
      generalize hu : (s.cutLine _).setResource l.resource _ = u
      have lease : ∀ k, (u.afterLeaseLeft l.resource cause).1.lease k = s.lease k := fun k => by
        rw [State.lease, State.afterLeaseLeft_leaseRecord]; subst hu; rfl
      have waiter : ∀ k, (u.afterLeaseLeft l.resource cause).1.waiter k = s.waiter k := fun k => by
        rw [State.afterLeaseLeft_waiter]; subst hu; rfl
      have others : ∀ k, k ≠ l.resource → (u.afterLeaseLeft l.resource cause).1.resource k = s.resource k := by
        intro k hk
        rw [State.afterLeaseLeft_resource_of_ne _ _ _ hk]
        subst hu
        exact State.setResource_resource_of_ne _ _ _ _ hk
      have uself : u.resource l.resource = { s.resource l.resource with
          holders := (s.resource l.resource).holders.set l.holder none } := by subst hu; simp
      have state := sound.holder_of_ne hi
      have self : (u.afterLeaseLeft l.resource cause).1.resource l.resource
          = (u.resource l.resource).left cause u.now :=
        State.afterLeaseLeft_resource_self cause (by rw [uself]; exact state)
      have passing : ((u.resource l.resource).left cause u.now).state = .idle →
          Work.pass l.resource ∈ (u.afterLeaseLeft l.resource cause).2 := by
        intro e
        rcases u.afterLeaseLeft_cases l.resource cause with ⟨h1, h2, -⟩ | ⟨-, -, hwork⟩
        · rw [uself] at h1 h2
          exact absurd state (by simp [h1, h2])
        · rw [hwork, if_pos (.inr e)]; simp
      have holders : ((u.resource l.resource).left cause u.now).holders
          = (s.resource l.resource).holders.set l.holder none := (Resource.left_holders _ _ _).trans (by rw [uself])
      have count := Resource.holderCount_set_none holders hi
      refine h'.of_resource l.resource lease waiter others ?_ ?_ ?_ ?_ ?_ ?_ ?_
      · rw [self, Resource.left_queue, uself]
      · rw [self]
        exact sound.left uself hi cause u.now fun e => by simp [passing e]
      · intro c k l' hk hl' hm
        rw [self] at hk ⊢
        exfalso
        rw [Resource.holder_set holders] at hk
        split at hk
        · cases hk
        · rename_i hc
          have one := h'.alone l.resource c k l' hk hl' hm
          have zero : ((u.resource l.resource).left cause u.now).holderCount = 0 := by omega
          have none := Resource.holderCount_eq_zero.1 zero c
          rw [Resource.holder_set holders, if_neg hc, hk] at none
          cases none
      · intro hd k l' hl' e ha
        rw [self] at hd
        have hds : (s.resource l.resource).state = .draining := by
          rcases Resource.left_cases (u.resource l.resource) cause u.now (by rw [uself]; exact state) with
            ⟨-, -, e1, -⟩ | ⟨e1, -⟩ | ⟨-, -, e1, -⟩ | ⟨-, -, e1, -⟩
          · rw [hd] at e1; cases e1
          · rw [uself] at e1; exact e1
          · rw [hd] at e1; cases e1
          · simp [hd] at e1
        obtain ⟨reason, grace, hm⟩ := h'.drains l.resource hds k l' hl' e ha
        exact ⟨reason, grace, List.mem_append_right _ hm⟩
      · intro _ _ _ _
        rw [self, Resource.left_config, uself]
      · exact fun k _ hm => List.mem_append_right _ hm
      · exact fun k reason grace hm => List.mem_append_right _ hm
    · exact h'

/-! ### The items of work -/

/-- Every item of work keeps the resource laws within the event. -/
theorem item (w : Work) (rest : List Work) (s : State) (hw : s.Working (w :: rest)) (h : s.Governed (w :: rest)) :
    (doWork w s).1.Governed ((doWork w s).2 ++ rest) := by
  cases w with
  | pass r => exact pass hw h
  | check r => exact h.skip (by simp) (by simp) _
  | recallLease i reason grace =>
    have passes : ∀ more : List Work, ∀ r, Work.pass r ∈ Work.recallLease i reason grace :: rest → Work.pass r ∈ more ++ rest := by
      intro more r hm
      exact List.mem_append_right _ (by simpa using hm)
    have recalls : ∀ more : List Work, ∀ k reason' grace', Work.recallLease k reason' grace' ∈ Work.recallLease i reason grace :: rest →
        k = i ∨ Work.recallLease k reason' grace' ∈ more ++ rest := by
      intro more k reason' grace' hm
      rcases List.mem_cons.1 hm with e | hm
      · cases e; exact .inl rfl
      · exact .inr (List.mem_append_right _ hm)
    -- a slot that is free, or whose lease is RECALLING already, owes nothing to a DRAINING resource
    have dropped : (∀ l, s.lease i = some l → l.state ≠ .active) → s.Governed rest := by
      intro hn
      refine { h.mono (work' := Work.recallLease i reason grace :: rest) (fun _ => id) (fun _ _ _ => id) with
        sound := fun r => (h.sound r).mono (passes [] r)
        drains := fun r hd k l hl e ha => ?_ }
      obtain ⟨reason', grace', hm⟩ := h.drains r hd k l hl e ha
      refine ⟨reason', grace', (recalls [] k reason' grace' hm).resolve_left ?_⟩
      rintro rfl
      exact hn l hl ha
    simp only [doWork, State.recallLease]
    split
    · rename_i hnone
      exact dropped (by simp [hnone])
    · rename_i l hl
      have posted : ∀ body, (s.post l.holder body).Governed (.recallLease i reason grace :: rest) :=
        fun body => h.of_tables rfl
      split
      · split
        · refine (posted _).setLease hl ⟨rfl, rfl, .inl rfl, nofun, .inl rfl⟩ (passes _) fun k reason' grace' hm => ?_
          exact (recalls _ k reason' grace' hm).imp_left fun e => ⟨e, nofun⟩
        · refine of_tables (s := (s.post l.holder _).setLease i _) ?_ rfl
          refine (posted _).setLease hl ⟨rfl, rfl, .inl rfl, nofun, .inr (.inl rfl)⟩ (passes _) fun k reason' grace' hm => ?_
          exact (recalls _ k reason' grace' hm).imp_left fun e => ⟨e, nofun⟩
      · rename_i ha
        refine dropped fun l' hl' => ?_
        cases hl.symm.trans hl'
        exact ha
  | endLease i cause => exact h.endLease
  | freeSlot i cause => exact (h.skip (by simp) (by simp) []).freeLease i cause
  | starvedFrom index =>
    simp only [doWork]
    split <;> exact h.skip (by simp) (by simp) _
  | endHolding r c cause =>
    simp only [doWork]
    split <;> exact h.skip (by simp) (by simp) _
  | removeWaiting r c o =>
    have h' : ∀ more, s.Governed (more ++ rest) := h.skip (by simp) (by simp)
    simp only [doWork, State.removeWaitingStep]
    split
    · exact h' []
    · split
      · exact h' []
      · exact ((h' _).of_tables (t := s.giveBack c 2) rfl).freeWaiter _ _

theorem dropQueue (h : s.Governed work) (r : ResourceId) : (s.dropQueue r).Governed work := by
  rw [State.dropQueue_eq]
  generalize (s.resource r).queue = queue
  induction queue generalizing s with
  | nil => exact h
  | cons j queue ih =>
    refine ih ?_
    unfold State.dropWaiterOffline
    split
    · exact h
    · rename_i w _
      exact (h.of_tables (t := (s.post w.client _).giveBack w.client 1) rfl).freeWaiter _ _

end State.Governed

/-! ### A new waiter (R57, R59) -/

theorem insertIdx_length_append {α : Type} (a b : List α) (x : α) : (a ++ b).insertIdx a.length x = a ++ x :: b := by
  induction a with
  | nil => rfl
  | cons y a ih => simp [ih]

/-- The waiter in slot `i` is less urgent than `u`. -/
def State.lessUrgent (s : State) (u : Urgency) (i : WaiterSlot) : Bool := (s.waiter i).any fun v => decide (v.urgency < u)

theorem State.lessUrgent_iff {s : State} {u : Urgency} {i : WaiterSlot} :
    s.lessUrgent u i = true ↔ ∃ v, s.waiter i = some v ∧ v.urgency < u := by
  simp [State.lessUrgent, Option.any_eq_true]

/-- In a queue ordered by urgency a new waiter's place is behind all that are as urgent, ahead of all that are less. -/
theorem State.insertIdx_enqueuePosition {s : State} {u : Urgency} {queue : List WaiterSlot} (j : WaiterSlot)
    (h : queue.Pairwise fun a b => s.lessUrgent u a = true → s.lessUrgent u b = true) :
    queue.insertIdx (s.enqueuePosition queue u) j
      = (queue.filter fun a => !s.lessUrgent u a) ++ j :: queue.filter (s.lessUrgent u) := by
  obtain ⟨split, count⟩ := takeWhile_reverse_of_sorted queue (s.lessUrgent u) h
  have position : s.enqueuePosition queue u = (queue.filter fun a => !s.lessUrgent u a).length := by
    have len := congrArg List.length split
    rw [List.length_append] at len
    change queue.length - (queue.reverse.takeWhile (s.lessUrgent u)).length = _
    omega
  rw [position]
  conv_lhs => arg 1; rw [split]
  exact insertIdx_length_append _ _ _

/-- The queues stay ordered by urgency when a new waiter has taken its place (R57). -/
theorem State.QueueOrder.enqueue {s : State} (h : s.QueueOrder) (hq : s.QueuesAgree) {j : WaiterSlot} {w : Waiter}
    (hj : s.waiter j = none) : (s.enqueue j w).QueueOrder := by
  have notin : ∀ r, j ∉ (s.resource r).queue := by
    intro r hm
    obtain ⟨w', hw', -⟩ := ((hq r).2 j).1 hm
    rw [hj] at hw'; cases hw'
  have same : ∀ r, ∀ k ∈ (s.resource r).queue, (s.enqueue j w).waiter k = s.waiter k := by
    intro r k hk
    have : k ≠ j := by rintro rfl; exact notin r hk
    rw [State.enqueue_waiter, if_neg this]
  have old : ∀ r, (s.resource r).queue.Pairwise fun a b =>
      ∀ v ∈ (s.enqueue j w).waiter a, ∀ v' ∈ (s.enqueue j w).waiter b, v'.urgency ≤ v.urgency := by
    intro r
    refine (h r).imp_of_mem fun {a b} ha hb hab => ?_
    rw [same r a ha, same r b hb]
    exact hab
  have new : (s.enqueue j w).waiter j = some w := by rw [State.enqueue_waiter, if_pos rfl]
  intro r
  rw [State.enqueue_resource s j w (notin _)]
  split
  · subst r
    have sorted : (s.resource w.resource).queue.Pairwise fun a b =>
        s.lessUrgent w.urgency a = true → s.lessUrgent w.urgency b = true := by
      refine (h w.resource).imp_of_mem fun {a b} _ hb hab hla => ?_
      obtain ⟨vb, hvb, -⟩ := ((hq w.resource).2 b).1 hb
      obtain ⟨va, hva, hlt⟩ := State.lessUrgent_iff.1 hla
      exact State.lessUrgent_iff.2 ⟨vb, hvb, lt_of_le_of_lt (hab va hva vb hvb) hlt⟩
    rw [State.insertIdx_enqueuePosition j sorted, List.pairwise_append, List.pairwise_cons]
    refine ⟨(old _).filter _, ⟨fun k hk v hv v' hv' => ?_, (old _).filter _⟩, fun a ha b hb v hv v' hv' => ?_⟩
    · cases new.symm.trans hv
      obtain ⟨hk, hl⟩ := List.mem_filter.1 hk
      obtain ⟨v, hv, hlt⟩ := State.lessUrgent_iff.1 hl
      rw [Option.mem_def, same _ k hk, hv] at hv'
      cases hv'
      exact hlt.le
    · obtain ⟨ha, hla⟩ := List.mem_filter.1 ha
      rw [Option.mem_def, same _ a ha] at hv
      have high : w.urgency ≤ v.urgency := by
        simpa [State.lessUrgent, hv] using hla
      rcases List.mem_cons.1 hb with rfl | hb
      · cases new.symm.trans hv'
        exact high
      · obtain ⟨hb, hlb⟩ := List.mem_filter.1 hb
        obtain ⟨vb, hvb, hlt⟩ := State.lessUrgent_iff.1 hlb
        rw [Option.mem_def, same _ b hb, hvb] at hv'
        cases hv'
        exact hlt.le.trans high
  · exact old r


end Sys2Proof.Machine
end

section
/-! The first steps of the events keep the resource laws, and so does every step. -/

namespace Sys2Proof.Machine

/-- What ACQUIRE's admission says of the resource (R31). -/
theorem State.admission_state {s : State} {c : Client} {a : AcquireParams} (h : s.admission c a = none) :
    (s.resource a.resource).state ≠ .offline ∧ (s.resource a.resource).state ≠ .draining := by
  simp only [State.admission] at h
  split_ifs at h with _ _ _ hs
  exact not_or.1 hs

/-- An immediate grant is one that the holder set admits (R32). -/
theorem State.immediateAllowed_admits {s : State} {a : AcquireParams} (h : s.immediateAllowed a = true)
    (sound : (s.resource a.resource).Sound False) :
    ((s.resource a.resource).state = .idle ∨ (s.resource a.resource).state = .held) ∧
      s.compatible a.resource a.mode = true ∧ s.hasRoom a.resource = true := by
  simp only [State.immediateAllowed, Bool.and_eq_true, Bool.or_eq_true, decide_eq_true_eq] at h
  obtain ⟨-, hidle | ⟨⟨⟨hheld, hmode⟩, hshared⟩, hroom⟩⟩ := h
  · have free : (s.resource a.resource).holderCount = 0 := sound.free (by simp [hidle]) (by simp [hidle])
    have max := (ResourceConfig.inRange_iff.1 sound.config).1
    refine ⟨.inl hidle, ?_, by simp [State.hasRoom, free]; omega⟩
    cases hm : a.mode with
    | exclusive => simp [State.compatible, free]
    | shared =>
      refine State.allShared_iff.2 fun c i hi => ?_
      rw [Resource.holders_get, Resource.holderCount_eq_zero.1 free c] at hi
      cases hi
  · exact ⟨.inr hheld, by simpa [State.compatible, hmode] using hshared, hroom⟩

/-! ### After an admitted ACQUIRE has joined the queue -/

theorem State.queued_lease (s : State) (c : Client) (a : AcquireParams) (j : WaiterSlot) (full : Bool) (i : LeaseSlot) :
    (s.queued c a j full).lease i = s.lease i := by
  unfold State.queued; dsimp only; split <;> rfl

theorem State.queued_waiter (s : State) (c : Client) (a : AcquireParams) (j : WaiterSlot) (full : Bool) (k : WaiterSlot) :
    (s.queued c a j full).waiter k = (s.enqueue j (a.waiter c s.now)).waiter k := by
  unfold State.queued; dsimp only; split <;> rfl

theorem State.queued_queue (s : State) (c : Client) (a : AcquireParams) (j : WaiterSlot) (full : Bool) (r : ResourceId) :
    ((s.queued c a j full).resource r).queue = ((s.enqueue j (a.waiter c s.now)).resource r).queue := by
  unfold State.queued
  dsimp only
  split
  · rw [State.setResource_resource]
    split
    · subst r; rfl
    · rfl
  · rfl

theorem State.queued_resource (s : State) (c : Client) (a : AcquireParams) (j : WaiterSlot) (full : Bool)
    (hj : j ∉ (s.resource a.resource).queue) (r : ResourceId) :
    (s.queued c a j full).resource r = if r = a.resource then { s.resource r with
      queue := (s.resource r).queue.insertIdx (s.enqueuePosition (s.resource r).queue a.urgency) j
      starved := (s.resource r).starved || full } else s.resource r := by
  have enq := s.enqueue_resource j (a.waiter c s.now) hj
  simp only [AcquireParams.waiter] at enq
  by_cases hr : r = a.resource
  · subst hr
    cases full <;> simp [State.queued, AcquireParams.waiter, enq]
  · cases full <;> simp [State.queued, AcquireParams.waiter, enq, hr, State.setResource_resource]

namespace State.Governed

variable {s : State}

theorem grant (hw : s.Working []) (h : s.Governed []) {c : Client} {a : AcquireParams} {i : LeaseSlot}
    (ha : s.admission c a = none) (himm : s.immediateAllowed a = true) (hfree : s.freeLeaseSlot = some i) :
    (s.beginLease i a.resource c a.mode a.urgency
      (grantInterval (s.resource a.resource).config s.now a.term)).Governed [] := by
  obtain ⟨state, compatible, room⟩ := State.immediateAllowed_admits himm ((h.sound _).mono (by simp))
  have nohold : (s.resource a.resource).holder c = none := by
    by_contra hn
    obtain ⟨k, hk⟩ := Option.ne_none_iff_exists'.1 hn
    exact (hw.noClaim ha).1 ⟨k, hw.named _ _ k hk⟩
  exact h.beginLease hw a.urgency s.now a.term state (State.freeLeaseSlot_free hfree) nohold compatible room

theorem queued (hw : s.Working []) (h : s.Governed []) {c : Client} {a : AcquireParams} {j : WaiterSlot}
    (ha : s.admission c a = none) (hfree : s.freeWaiterSlot = some j) :
    (s.queued c a j (s.immediateAllowed a)).Governed [] := by
  have hj := State.freeWaiterSlot_free hfree
  obtain ⟨notOffline, notDraining⟩ := State.admission_state ha
  have notin : j ∉ (s.resource a.resource).queue := by
    intro hm
    obtain ⟨w, hw', -⟩ := hw.waiter_of_queue hm
    rw [hj] at hw'; cases hw'
  have sound := h.sound a.resource
  have resource := s.queued_resource c a j (s.immediateAllowed a) notin
  have holders : ∀ r, ((s.queued c a j (s.immediateAllowed a)).resource r).holders = (s.resource r).holders := by
    intro r; rw [resource]; split <;> rfl
  have config : ∀ r, ((s.queued c a j (s.immediateAllowed a)).resource r).config = (s.resource r).config := by
    intro r; rw [resource]; split <;> rfl
  have state : ∀ r, ((s.queued c a j (s.immediateAllowed a)).resource r).state = (s.resource r).state := by
    intro r; rw [resource]; split <;> rfl
  -- an IDLE resource on which no grant is allowed at once has waiters already, so it is starved
  have starved : (s.resource a.resource).state = .idle →
      ((s.resource a.resource).starved || s.immediateAllowed a) = true := by
    intro hs
    cases hi : s.immediateAllowed a with
    | true => simp
    | false =>
      have fence : (s.resource a.resource).fenceMark = false := sound.unmarked (by simp [hs])
      have waiting : (s.resource a.resource).queue ≠ [] := by
        intro e
        simp [State.immediateAllowed, hs, fence, e] at hi
      simpa using sound.idle hs waiting
  refine ⟨fun r => ?_, fun r hd i l hl => ?_, fun r d i l hd hl he => ?_, fun i l hl => ?_, fun r => ?_⟩
  · rw [resource]
    split
    · subst r
      exact { sound with
        free := sound.free
        taken := sound.taken
        room := sound.room
        empty := fun hs => (hs.elim notOffline notDraining).elim
        starved := fun _ => ⟨notOffline, notDraining⟩
        idle := fun hs _ => .inl (starved hs) }
    · exact h.sound r
  · rw [state] at hd
    rw [State.queued_lease] at hl
    exact h.drains r hd i l hl
  · rw [Resource.holder_congr (holders r)] at hd
    rw [State.queued_lease] at hl
    rw [Resource.holderCount_congr (holders r)]
    exact h.alone r d i l hd hl he
  · rw [Option.mem_def, State.queued_lease] at hl
    rw [config]
    exact h.policy i l hl
  · simp only [State.queued_queue, State.queued_waiter]
    exact State.QueueOrder.enqueue h.order hw.queues (w := a.waiter c s.now) hj r

/-- Without work still to come, an OFFLINE, IDLE, SETTLING or FENCED resource has no lease (R5). -/
theorem no_lease (hw : s.Working []) (h : s.Governed []) {r : ResourceId} (h1 : (s.resource r).state ≠ .held)
    (h2 : (s.resource r).state ≠ .draining) {i : LeaseSlot} {l : Lease} (hl : s.lease i = some l) : l.resource ≠ r := by
  rintro rfl
  have := (hw.standing _ _ i ⟨l, hl, rfl, rfl⟩).resolve_right (by simp)
  rw [Resource.holderCount_eq_zero.1 ((h.sound _).free h1 h2)] at this
  cases this

/-- A resource's record is rewritten in an event with no work still to come; it keeps holders, queue and configuration and
does not begin to drain. -/
theorem rewrite (h : s.Governed []) {work : List Work} (r : ResourceId) {x : Resource}
    (holders : x.holders = (s.resource r).holders) (queue : x.queue = (s.resource r).queue)
    (config : x.config = (s.resource r).config) (sound : x.Sound (.pass r ∈ work)) (state : x.state ≠ .draining) :
    (s.setResource r x).Governed work :=
  h.setResource r holders queue sound (fun e => absurd e state) (fun _ _ _ _ => by rw [config]) (by simp) (by simp)

theorem offline (hw : s.Working []) (h : s.Governed []) {r : ResourceId}
    (hs : (s.resource r).state = .idle ∨ (s.resource r).state = .settling ∨ (s.resource r).state = .fenced) :
    (s.offlineNow r).Governed [] := by
  have self : (s.dropQueue r).resource r = { s.resource r with queue := [] } := by
    rw [hw.queues.dropQueue_resource, if_pos rfl]
  have sound := (h.dropQueue r).sound r
  rw [self] at sound
  have free := sound.free (by rcases hs with e | e | e <;> simp [e]) (by rcases hs with e | e | e <;> simp [e])
  have fence := (h.sound r).unmarked (by rcases hs with e | e | e <;> simp [e])
  refine ((h.dropQueue r).of_tables (t := (s.dropQueue r).disarm (.resource r)) rfl).rewrite r (by rfl) (by rfl) (by rfl)
    ?_ nofun
  rw [State.disarm_resource, self]
  constructor
  case free => exact fun _ _ => free
  case room => exact sound.room
  case config => exact sound.config
  all_goals simp [fence]

theorem drain (hw : s.Working []) (h : s.Governed []) {r : ResourceId} (hs : (s.resource r).state = .held) :
    (s.beginDraining r).Governed ((s.beginDraining r).drainRecalls r) := by
  have self : (s.dropQueue r).resource r = { s.resource r with queue := [] } := by
    rw [hw.queues.dropQueue_resource, if_pos rfl]
  have sound := (h.dropQueue r).sound r
  have lease : ∀ i, (s.dropQueue r).lease i = s.lease i := fun i => by rw [State.dropQueue_eq, State.dropWaiters_lease]
  refine (h.dropQueue r).setResource r (by rfl) (by rfl) ?_ ?_ (fun _ _ _ _ => by rfl) (by simp) (by simp)
  · rw [self] at sound ⊢
    constructor
    case taken => exact fun _ => sound.taken (.inl hs)
    case room => exact sound.room
    case config => exact sound.config
    all_goals simp
  · intro _ i l hl e ha
    refine ⟨.offline, ((s.beginDraining r).resource r).config.grace, ?_⟩
    simp only [State.drainRecalls, List.mem_map]
    refine ⟨i, ?_, rfl⟩
    have hl' : (s.beginDraining r).lease i = some l := hl
    have hi : (s.resource r).holder l.holder = some i := by
      rw [lease] at hl
      exact (hw.standing r l.holder i ⟨l, hl, e, rfl⟩).resolve_right (by simp)
    have hb : ((s.beginDraining r).resource r).holders = (s.resource r).holders := by
      unfold State.beginDraining
      dsimp only
      rw [State.setResource_resource_self, self]
    refine List.mem_filter.2 ⟨List.mem_map.2 ⟨(l.holder, i), ?_, rfl⟩, by simp [hl', ha]⟩
    rw [Resource.mem_holderList, Resource.holders_get, Resource.holder_congr hb]
    exact hi

theorem unfence (h : s.Governed []) {r : ResourceId} (hs : (s.resource r).state = .fenced) :
    (s.settleOrIdle r).1.Governed (s.settleOrIdle r).2 := by
  have sound := h.sound r
  have free := sound.free (by simp [hs]) (by simp [hs])
  have fence := sound.unmarked (by simp [hs])
  simp only [State.settleOrIdle, State.enterSettling]
  split
  · refine h.rewrite r (by rfl) (by rfl) (by rfl) ?_ nofun
    constructor
    case free => exact fun _ _ => free
    case room => exact sound.room
    case config => exact sound.config
    all_goals simp [fence]
  · refine State.Governed.of_tables (s := s.setResource r _) (h.rewrite r (by rfl) (by rfl) (by rfl) ?_ (by simp)) rfl
    constructor
    case free => exact fun _ _ => free
    case room => exact sound.room
    case config => exact sound.config
    all_goals simp [fence]

theorem unmark (h : s.Governed []) {r : ResourceId} (hs : (s.resource r).state = .held) :
    (s.setResource r { s.resource r with fenceMark := false }).Governed [.pass r] := by
  have sound := h.sound r
  refine h.rewrite r (by rfl) (by rfl) (by rfl) ?_ (by simp [hs])
  exact { sound with
    free := sound.free
    taken := sound.taken
    room := sound.room
    fence := nofun
    idle := fun hi => by simp [hs] at hi }

theorem settled (h : s.Governed []) {r : ResourceId} (hs : (s.resource r).state = .settling) :
    (s.setResource r { s.resource r with state := .idle, settleDeadline := none }).Governed [.pass r] := by
  have sound := h.sound r
  have fence := sound.unmarked (by simp [hs])
  refine h.rewrite r (by rfl) (by rfl) (by rfl) ?_ nofun
  constructor
  case free => exact fun _ _ => sound.free (by simp [hs]) (by simp [hs])
  case room => exact sound.room
  case config => exact sound.config
  all_goals simp [fence]

theorem online (h : s.Governed []) {r : ResourceId} (hs : (s.resource r).state = .offline) :
    (s.setResource r { s.resource r with state := .idle }).Governed [] := by
  have sound := h.sound r
  have queue := sound.empty (.inl hs)
  have fence := sound.unmarked (by simp [hs])
  refine h.rewrite r (by rfl) (by rfl) (by rfl) ?_ nofun
  constructor
  case free => exact fun _ _ => sound.free (by simp [hs]) (by simp [hs])
  case room => exact sound.room
  case config => exact sound.config
  all_goals simp [fence, queue]

theorem configure (hw : s.Working []) (h : s.Governed []) {r : ResourceId} {c : ResourceConfig}
    (hs : (s.resource r).state = .offline) (hc : c.inRange = true) :
    (s.setResource r { s.resource r with config := c }).Governed [] := by
  have sound := h.sound r
  have free := sound.free (by simp [hs]) (by simp [hs])
  refine h.setResource r (by rfl) (by rfl) ?_ (fun e => by simp [hs] at e) (fun i l hl e => ?_) (by simp) (by simp)
  · exact { sound with
      free := sound.free
      taken := sound.taken
      room := by
        refine le_of_eq_of_le (b := 0) free (Nat.zero_le _)
      config := hc }
  · exact absurd e (h.no_lease hw (by simp [hs]) (by simp [hs]) hl)

end State.Governed

/-- Every event keeps the record laws and the resource laws together. -/
theorem eventInvariant_governed : EventInvariant fun work s => s.Working work ∧ s.Governed work where
  start work s h := ⟨eventInvariant_working.start work s h.1, h.2.start work⟩
  item w rest s h := ⟨h.1.item w rest s, h.2.item w rest s h.1⟩
  quiet s t e h := ⟨h.1.of_tables e, h.2.of_tables e⟩
  session s c x hl hw h := ⟨h.1.setSession hl hw, h.2.of_same (fun _ => rfl) (fun _ => rfl) fun _ => rfl⟩
  lease s i l l' hl hr h := ⟨h.1.setLease hl hr.resource hr.holder, h.2.setLease hl hr (by simp) (by simp)⟩
  grant s c a i ha himm hi h := ⟨eventInvariant_working.grant s c a i ha himm hi h.1, h.2.grant h.1 ha himm hi⟩
  queue s c a j ha hj h := ⟨eventInvariant_working.queue s c a j ha hj h.1, h.2.queued h.1 ha hj⟩
  freeWaiter s j o h := ⟨h.1.freeWaiter j o, h.2.freeWaiter j o⟩
  online s r hs h := ⟨eventInvariant_working.online s r hs h.1, h.2.online hs⟩
  offline s r hs h := ⟨eventInvariant_working.offline s r hs h.1, h.2.offline h.1 hs⟩
  drain s r hs h := ⟨eventInvariant_working.drain s r hs h.1, h.2.drain h.1 hs⟩
  unfence s r hs h := ⟨eventInvariant_working.unfence s r hs h.1, h.2.unfence hs⟩
  unmark s r hs h := ⟨eventInvariant_working.unmark s r hs h.1, h.2.unmark hs⟩
  settled s r hs h := ⟨eventInvariant_working.settled s r hs h.1, h.2.settled hs⟩

/-- The laws speak of the tables alone. -/
theorem State.ResourceLaws.of_tables {s t : State} (h : s.ResourceLaws) (e : t.tables = s.tables) : t.ResourceLaws := by
  obtain ⟨h0, h1, h2, h3, h4, h5, h6, h7⟩ := h
  have r := h0.of_tables e
  cases s; cases t
  simp only [State.tables, Prod.mk.injEq] at e
  obtain ⟨rfl, rfl, rfl, rfl, rfl⟩ := e
  exact ⟨r, h1, h2, h3, h4, h5, h6, h7⟩

/-- Right after device reset every resource is OFFLINE with nothing on it. -/
theorem reset_resourceLaws : State.reset.ResourceLaws := by
  have count : Resource.atReset.holderCount = 0 := by decide
  refine ⟨reset_recordLaws, fun r => ?_, ?_, fun r => ?_, fun r => ?_, ?_, fun r => ?_, fun r => ?_⟩
  · rw [reset_resource]; exact ⟨count, rfl⟩
  · simp [State.ExclusiveAlone]
  · rw [reset_resource]; exact ⟨nofun, nofun⟩
  · rw [reset_resource]; exact nofun
  · simp [State.PolicyLaw]
  · rw [reset_resource]; decide
  · simp [Resource.atReset]

/-- Settles O59: within an event a resource may be IDLE with waiters while its grant pass is to come, and DRAINING with
ACTIVE leases while their recalls are, and the event's end leaves none of these. -/
theorem stepKeepsResourceLaws : Obligations.StepKeepsResourceLaws := by
  intro s t hs ht
  have exec_keeps : ∀ (c : Instr) (s t : State), s.ResourceLaws → exec c s = .next t → t.ResourceLaws := by
    intro c s t hs ht
    by_cases hc : c = .deviceReset
    · subst hc
      cases ht
      exact reset_resourceLaws.of_tables rfl
    · have begins : s.beginEvent.Working [] ∧ s.beginEvent.Governed [] :=
        ⟨hs.working, hs.governed.of_same (fun _ => rfl) (fun _ => rfl) fun _ => rfl⟩
      refine eventInvariant_governed.exec begins (fun u h => h.2.resourceLaws h.1) (fun u v e h => h.of_tables e)
        (fun params => ?_) hs hc ht
      rcases configureResourceBody_cases params s.beginEvent with e | ⟨r, x, hr, hx, e⟩ <;> rw [e]
      · exact begins
      · exact ⟨begins.1.setResource r (by rfl) (by rfl), begins.2.configure begins.1 hr hx⟩
  unfold step at ht
  split at ht
  · cases ht
    exact hs.of_tables s.refclk_tables
  · rename_i c rest _
    exact exec_keeps c { s with pending := rest } t (hs.of_tables rfl) ht

end Sys2Proof.Machine
end

section
/-! Refusals, stale expiries and queries: requests and expiries whose answer, or whose taking, is their only effect. -/

namespace Sys2Proof.Machine

/-! ### Refusals (R2) -/

/-- Settles O4: each common check that fails leaves the answer as the only effect. -/
theorem commonChecksRefuse : Obligations.CommonChecksRefuse := by
  intro p q s ho
  have refused : ∀ (k : Kind) (status : Status), kindOfByte q.kind = some k →
      commonCheck k q (s.session p) = some status →
      ∃ t, exec (k.command p) s = .next t ∧ s.Refused t p q status [] :=
    fun k status hk hc => ⟨_, exec_kind k p s, State.refused_of_commonCheck ho hk hc⟩
  refine ⟨fun hk => ?_, fun k hk hl => ?_, fun k hk hl hn hopen => ?_, fun k hk hl hopen hadmin hright => ?_⟩
  · refine ⟨_, ?_, (State.Inner.begin s).served (.plain .unknownKind)⟩
    simp [exec, execUnknownKind, ho, hk]
  · exact refused k _ hk (by simp [commonCheck, hl])
  · exact refused k _ hk (by simp [commonCheck, hl, hn, hopen])
  · exact refused k _ hk (by simp [commonCheck, hl, hopen, hadmin, hright])

/-- A kind's own checks that refuse leave the state as it was: every body answers OK or QUEUED, or changes nothing. -/
theorem body_refuses (k : Kind) (p : Client) (params : List Byte) (s : State) :
    (k.body p params s).1.status = .ok ∨ (k.body p params s).1.status = .queued ∨ (k.body p params s).2 = s := by
  have lease : ∀ ref : LeaseRef, (ref.refusal, s).2 = s := fun _ => rfl
  have queued : ∀ a full, (s.queuedPath p a full).1.status = .queued ∨ (s.queuedPath p a full).2 = s := by
    intro a full
    unfold State.queuedPath
    split
    · exact .inr rfl
    · split
      · exact .inr rfl
      · exact .inl rfl
  cases k <;> dsimp only [Kind.body]
  case openSession =>
    unfold openSessionBody; dsimp only
    split <;> simp
  case closeSession => exact .inl rfl
  case setThreshold => unfold setThresholdBody; split <;> simp [refuse]
  case acquire =>
    unfold acquireBody
    split
    · exact .inr (.inr rfl)
    · split
      · exact .inr (.inr rfl)
      · unfold State.admitted
        split
        · split
          · split
            · exact .inr (.inr rfl)
            · exact .inr (queued _ _)
          · split
            · exact .inl rfl
            · exact .inr (.inr rfl)
        · split
          · exact .inr (.inr rfl)
          · exact .inr (queued _ _)
  case renew =>
    unfold renewBody; dsimp only
    split
    · split_ifs <;> simp [refuse]
    · simp
  case release => unfold releaseBody; split <;> simp [Reply.plain]
  case downgrade =>
    unfold downgradeBody
    split
    · split_ifs <;> simp [refuse]
    · simp
  case cancel => unfold cancelBody; split <;> simp [Reply.plain, refuse]
  case queryLease => unfold queryLeaseBody; split <;> simp
  case queryResource => unfold queryResourceBody; split <;> simp [refuse]
  case queryDevice => exact .inl rfl
  case configureResource =>
    rcases configureResourceBody_cases params s with e | ⟨r, c, hr, -, e⟩
    · exact .inr (.inr e)
    · unfold configureResourceBody
      split
      · exact .inr (.inr rfl)
      · split
        · exact .inr (.inr rfl)
        · dsimp only
          split_ifs
          · exact .inl rfl
          · exact .inr (.inr rfl)
  case setOnline =>
    unfold setOnlineBody
    split
    · simp [refuse]
    · dsimp only
      split_ifs <;> simp [refuse, Reply.plain]
  case takeOffline =>
    unfold takeOfflineBody
    split
    · simp [refuse]
    · dsimp only
      split <;> simp [refuse, takeOfflineReply]
  case clearFence =>
    unfold clearFenceBody
    split
    · simp [refuse]
    · dsimp only
      split_ifs <;> simp [refuse]
  case revoke =>
    have reply : ∀ grace now, (revokeReply grace now).status = .ok := by
      intro grace now; unfold revokeReply; split <;> rfl
    unfold revokeBody
    split
    · split
      · exact .inr (.inr rfl)
      · split
        · exact .inl (reply _ _)
        · split
          · exact .inl (reply _ _)
          · exact .inr (.inr rfl)
    · exact .inr (.inr rfl)
  case setTimebase =>
    unfold setTimebaseBody; dsimp only
    split_ifs <;> simp [refuse]
  case setRights =>
    unfold setRightsBody
    split
    · split_ifs <;> simp [refuse]
    · simp [refuse]
  case evictClient =>
    unfold evictClientBody
    split
    · simp [refuse]
    · split_ifs <;> simp [refuse]

/-- Settles O5: a request's body changes no port and no tick, and what it refuses it leaves as it was. -/
theorem refusedRequestChangesNothing : Obligations.RefusedRequestChangesNothing := by
  intro k p q s ho hk
  rcases s.serve_cases p k (k.body p) with ⟨-, none⟩ | ⟨q', ho', -, ⟨status, -, e⟩ | ⟨serving, e⟩⟩
  · exact absurd hk (none q ho)
  · cases ho.symm.trans ho'
    have served := (State.Inner.begin s).served (p := p) (q := q) (.plain status)
    exact ⟨_, status, [], by rw [exec_kind, e], served.1, fun _ _ => served⟩
  · cases ho.symm.trans ho'
    have port : (k.body p q.params s.beginEvent).2.port p = s.port p :=
      congrArg (fun ports => ports[p]) (keptByRequests_ports.body k p q.params s.beginEvent)
    have now : (k.body p q.params s.beginEvent).2.now = s.now := keptByRequests_now.body k p q.params s.beginEvent
    refine ⟨_, (k.body p q.params s.beginEvent).1.status, (k.body p q.params s.beginEvent).1.results,
      by rw [exec_kind, e], ?_, fun h1 h2 => ?_⟩
    · simp [State.answer_port, port, now]
    · have same := (body_refuses k p q.params s.beginEvent).resolve_left h1 |>.resolve_left h2
      rw [same, State.testHead_nothing_done]
      exact (State.Inner.begin s).served _

/-! ### Stale expiries (R3, R105) -/

theorem currentLease_of_stale {s : State} {e : Entry} (h : ¬ s.Current e) : s.expiryTaken.currentLease e = none := by
  unfold State.currentLease
  split
  · rename_i i ho
    split
    · rename_i l hl
      refine if_neg fun ⟨h1, h2, h3⟩ => h ?_
      unfold State.Current
      rw [ho]
      exact ⟨l, hl, h1, h2, h3⟩
    · rfl
  · rfl

theorem currentWaiter_of_stale {s : State} {e : Entry} (h : ¬ s.Current e) (hp : e.purpose = .wait) :
    s.expiryTaken.currentWaiter e = none := by
  unfold State.currentWaiter
  split
  · rename_i j ho
    split
    · rename_i w hw
      refine if_neg fun ⟨h1, h2⟩ => h ?_
      unfold State.Current
      rw [ho]
      exact ⟨w, hw, hp, h1, h2⟩
    · rfl
  · rfl

theorem currentResource_of_stale {s : State} {e : Entry} (h : ¬ s.Current e) (hp : e.purpose = .settle) :
    s.expiryTaken.currentResource e = none := by
  unfold State.currentResource
  split
  · rename_i r ho
    refine if_neg fun ⟨h1, h2⟩ => h ?_
    unfold State.Current
    rw [ho]
    exact ⟨hp, h1, h2⟩
  · rfl

/-- A stale expiry has no effect of its own, whatever its purpose. -/
theorem act_of_stale {s : State} {e : Entry} (h : ¬ s.Current e) : e.purpose.act e s.expiryTaken = s.expiryTaken := by
  have lease := currentLease_of_stale h
  cases hp : e.purpose <;> dsimp only [Purpose.act]
  case warn => simp [warnAct, lease]
  case expire => simp [expireAct, lease]
  case slice => simp [sliceAct, lease]
  case grace => simp [graceAct, lease]
  case wait => simp [waitAct, currentWaiter_of_stale h hp]
  case settle => simp [settleAct, currentResource_of_stale h hp]

/-- Settles O31. -/
theorem staleExpiriesIgnored : Obligations.StaleExpiriesIgnored := by
  intro s e ho h
  refine ⟨s.expiryTaken.endEvent, ?_, s.inner_expiryTaken.taken (m := {}) rfl rfl⟩
  rw [exec_purpose, State.takeExpiry_of_owed ho rfl, act_of_stale h]

/-! ### Queries (R23, R24, R51, R52, R110) -/

/-- A request that answers OK and leaves the state as it was. -/
theorem State.Serving.answered {s : State} {p : Client} {q : Request} {k : Kind} {results : List Byte}
    (h : s.Serving p q k) (hb : k.body p q.params s.beginEvent = (⟨.ok, results⟩, s.beginEvent)) :
    ∃ t, Machine.exec (k.command p) s = .next t ∧ s.Served t p q .ok results {} [] :=
  ⟨_, Machine.exec_kind k p s, h.refused hb⟩

/-- Settles O42. -/
theorem queriesReadOnly : Obligations.QueriesReadOnly := by
  intro p q s
  dsimp only
  refine ⟨fun i l hs hv => ?_, fun r hs hr => ?_, fun hs => ?_⟩
  · refine hs.answered (k := .queryLease) ?_
    have hv' : s.beginEvent.resolveOwnLease p (handleAt 32 q.params 0) = .valid i l := hv
    simp only [Kind.body, queryLeaseBody, hv', Lease.view, remaining_eq]
    rfl
  · refine hs.answered (k := .queryResource) ?_
    simp only [Kind.body, queryResourceBody, hr, resourceOfByte_natByte]
    rfl
  · obtain ⟨t, ht, served⟩ := hs.answered (k := .queryDevice) rfl
    exact ⟨t, s.admins, s.openSessions, ht, served, fun c => ⟨s.admins_bit c, s.openSessions_bit c⟩⟩

end Sys2Proof.Machine
end

section
/-! Device reset: the readings of its state, the value of every record after it (R163), and the laws that hold there. -/

namespace Sys2Proof.Machine

@[simp] theorem reset_box (c : Client) : State.reset.box c = NoticeBox.atReset := by
  simp [State.box, State.reset]

@[simp] theorem reset_port (p : Client) : State.reset.port p = Port.atReset false := by
  simp [State.port, State.reset]

@[simp] theorem reset_deadlines : State.reset.deadlines = ⟨[], none⟩ := rfl

/-! ### The commands of RESET_N (R163) -/

/-- The state that DEVICE_RESET leaves. -/
def State.afterReset (s : State) : State :=
  { State.reset with resetHeld := true, ports := s.ports.map fun x => Port.atReset x.pclr, pending := s.pending }

theorem exec_deviceReset (s : State) : exec .deviceReset s = .next s.afterReset := rfl

theorem afterReset_port (s : State) (p : Client) : s.afterReset.port p = Port.atReset (s.port p).pclr := by
  simp [State.afterReset, State.port]

/-- With every PCLR_N deasserted the ports have their reset values. -/
theorem afterReset_ports {s : State} (h : ∀ p : Client, (s.port p).pclr = false) :
    s.afterReset.ports = State.reset.ports := by
  apply Vector.ext
  intro i hi
  have pclr : s.ports[i].pclr = false := h ⟨i, hi⟩
  simp [State.afterReset, State.reset, pclr]

/-- The deassertion of RESET_N, while it is held. -/
theorem exec_resetDeasserted_of_held {s : State} (h : s.resetHeld = true) :
    exec .resetDeasserted s = .next { s with resetHeld := false, ports := s.ports.map Port.leaveReset } := by
  show execResetDeasserted s = _
  rw [execResetDeasserted, if_pos h]

/-- The deassertion of RESET_N, while it is not held. -/
theorem exec_resetDeasserted_of_not_held {s : State} (h : s.resetHeld = false) :
    exec .resetDeasserted s = .next s := by
  show execResetDeasserted s = _
  simp [execResetDeasserted, h]

/-- Settles O53. -/
theorem deviceResetRestoresEverything : Obligations.DeviceResetRestoresEverything := by
  intro s
  refine ⟨⟨s.afterReset, exec_deviceReset s, rfl, rfl, rfl, rfl, reset_resource, reset_leaseRecord, reset_waiterRecord,
    fun c => ⟨?_, reset_box c, afterReset_port s c, fun r => reset_line r c⟩⟩, fun h => ?_, rfl, fun h => ?_,
    exec_resetDeasserted_of_not_held⟩
  · exact (reset_session c).trans rfl
  · have ports := afterReset_ports h
    rw [exec_deviceReset]
    unfold State.afterReset at ports ⊢
    rw [show (s.ports.map fun x => Port.atReset x.pclr) = State.reset.ports from ports]
  · refine ⟨_, exec_resetDeasserted_of_held h, rfl, fun p => ?_⟩
    exact Vector.getElem_map Port.leaveReset p.isLt

/-! ### The laws right after device reset -/

theorem reset_noticeLaws : State.reset.NoticeLaws where
  toRecordLaws := reset_recordLaws
  reservations := by intro c; simp [NoticeBox.atReset]
  room := by intro c; simp [NoticeBox.atReset, NoticeBox.used]
  closed := by intro c _; simp [reset_session, Session.atReset, NoticeBox.atReset]

/-- No owner runs an interval right after device reset. -/
theorem reset_entryOf (o : Owner) : State.reset.entryOf o = none := by
  cases o <;> simp [State.entryOf, Resource.atReset]

theorem reset_deadlineLaws : State.reset.DeadlineLaws where
  toRecordLaws := reset_recordLaws
  entries := ⟨by simp, fun o => by simp [reset_entryOf]⟩
  oneEach := by simp [State.OneEntryEach]
  owed := by simp [State.OwedLaw]
  phases := by simp [State.PhaseLaw]
  settle := by intro r; simp [Resource.atReset]

theorem reset_blockLaws : State.reset.BlockLaws where
  timeBase := by decide
  admin := ⟨0, by simp [reset_session, Session.atReset]⟩
  attention := by intro c; simp [NoticeBox.atReset]
  threshold := by intro c; simp [reset_session, Session.atReset, NoticeBox.atReset]
  buffer := by intro p; simp [Port.atReset]
  items := by intro p; simp [Port.atReset]
  delivery := by simp [State.DeliveryLaw]
  config := reset_resourceLaws.config

/-- Settles O54. -/
theorem resetMeetsEveryLaw : Obligations.ResetMeetsEveryLaw :=
  ⟨reset_noticeLaws, reset_deadlineLaws, reset_resourceLaws, reset_blockLaws, by simp [State.DueOrder]⟩

end Sys2Proof.Machine
end

section
/-!
SUPPORT. Frames built write by write: what each of the state's writes adds to the records an event has reached; and an
event from its body to its command.
-/

namespace Sys2Proof.Machine

/-! ### A frame after one more write -/

section
variable {s u : State} {m : Touched}

/-- Nothing done is within every frame. -/
theorem State.Frame.refl (s : State) (hg : m.gate = none) : s.Frame s m :=
  ⟨rfl, rfl, fun _ => rfl, fun _ _ => rfl, fun _ _ => rfl, fun _ _ => rfl, fun _ _ => rfl, fun _ _ => rfl,
    fun _ _ => rfl, rfl, fun _ => rfl, by rw [hg]⟩

theorem State.Frame.setResource (h : s.Frame u m) {r : ResourceId} (hr : r ∈ m.resources) (x : Resource) :
    s.Frame (u.setResource r x) m :=
  { h with
    resources := fun k hk => by
      rw [State.setResource_resource, if_neg (by rintro rfl; exact hk hr)]; exact h.resources k hk }

theorem State.Frame.setLeaseRecord (h : s.Frame u m) {i : LeaseSlot} (hi : i ∈ m.leases) (x : LeaseRecord) :
    s.Frame (u.setLeaseRecord i x) m :=
  { h with
    leases := fun k hk => by
      rw [State.setLeaseRecord_leaseRecord, if_neg (by rintro rfl; exact hk hi)]; exact h.leases k hk }

theorem State.Frame.setWaiterRecord (h : s.Frame u m) {j : WaiterSlot} (hj : j ∈ m.waiters) (x : WaiterRecord) :
    s.Frame (u.setWaiterRecord j x) m :=
  { h with
    waiters := fun k hk => by
      rw [State.setWaiterRecord_waiterRecord, if_neg (by rintro rfl; exact hk hj)]; exact h.waiters k hk }

theorem State.Frame.setSession (h : s.Frame u m) {c : Client} (hc : c ∈ m.sessions) (x : Session) :
    s.Frame (u.setSession c x) m :=
  { h with
    sessions := fun d hd => by
      rw [State.setSession_session, if_neg (by rintro rfl; exact hd hc)]; exact h.sessions d hd }

theorem State.Frame.setBox (h : s.Frame u m) {c : Client} (hc : c ∈ m.boxes) (x : NoticeBox) :
    s.Frame (u.setBox c x) m :=
  { h with
    boxes := fun d hd => by
      rw [State.setBox_box, if_neg (by rintro rfl; exact hd hc)]; exact h.boxes d hd }

theorem State.Frame.arm (h : s.Frame u m) {e : Entry} (ho : e.owner ∈ m.owners) : s.Frame (u.arm e) m :=
  { h with entries := (u.filter_arm e _ fun x hx => by simp [hx, ho]).trans h.entries }

theorem State.Frame.disarm (h : s.Frame u m) {o : Owner} (ho : o ∈ m.owners) : s.Frame (u.disarm o) m :=
  { h with entries := (u.filter_disarm o _ fun x hx => by simp [hx, ho]).trans h.entries }

end

/-! ### The event's own work -/

/-- Nothing done yet, whatever may be reached. -/
theorem State.Inner.start (s : State) (m : Touched) : s.Inner s.beginEvent m [] [] :=
  ⟨State.Frame.refl s rfl, rfl, rfl⟩

/-- The owed expiry taken and nothing else done yet. -/
theorem State.Inner.startExpiry (s : State) {m : Touched} (hm : m.owed = true) : s.Inner s.expiryTaken m [] [] :=
  ⟨{ State.Frame.refl s rfl with owed := fun h => by rw [show m.owed = false from h] at hm; cases hm }, rfl, rfl⟩

section
variable {s u : State} {m : Touched} {cuts sets : List Line}

theorem State.Inner.setResource (h : s.Inner u m cuts sets) {r : ResourceId} (hr : r ∈ m.resources) (x : Resource) :
    s.Inner (u.setResource r x) m cuts sets := ⟨h.frame.setResource hr x, h.now, h.gate⟩

theorem State.Inner.arm (h : s.Inner u m cuts sets) {e : Entry} (ho : e.owner ∈ m.owners) :
    s.Inner (u.arm e) m cuts sets := ⟨h.frame.arm ho, h.now, h.gate⟩

theorem State.Inner.disarm (h : s.Inner u m cuts sets) {o : Owner} (ho : o ∈ m.owners) :
    s.Inner (u.disarm o) m cuts sets := ⟨h.frame.disarm ho, h.now, h.gate⟩

/-- The event of a request that drove no line ends. -/
theorem State.Inner.served_quiet (h : s.Inner u m [] []) (p : Client) (q : Request) (a : Reply) :
    s.Served (u.endEvent.answer p q a) p q a.status a.results m [] := h.served a

/-- The event of an expiry that drove no line ends. -/
theorem State.Inner.taken_quiet (h : s.Inner u { m with owed := true } [] []) (hm : m.ports = [])
    (ho : u.deadlines.owed = none) : s.Taken u.endEvent m [] := h.taken hm ho

end

/-- A grant pass on an empty queue, as the whole work of an event. -/
theorem State.run_pass_empty {s : State} {r : ResourceId} (h : (s.resource r).queue = []) :
    s.run [.pass r] = s.setResource r { s.resource r with starved := false } := by
  rw [State.run_single (by rw [doWork_pass_empty h]), doWork_pass_empty h]

@[simp] theorem State.run_nil (s : State) : s.run [] = s := runWork_nil _ s

/-! ### From the body to the command -/

section
variable {s u : State} {p : Client} {q : Request} {k : Kind} {a : Reply}

/-- A request that passes the common checks: its kind's own effect, the answer, the delivery test. -/
theorem State.Serving.exec_body (h : s.Serving p q k) (hb : k.body p q.params s.beginEvent = (a, u)) :
    Machine.exec (k.command p) s = .next (s.testHead (u.endEvent.answer p q a)) := by
  rw [h.exec, hb, State.testHead_answer]

/-- A request whose effect leaves the deadline list as it was makes no delivery test. -/
theorem State.Serving.exec_quiet (h : s.Serving p q k) (hb : k.body p q.params s.beginEvent = (a, u))
    (hd : u.deadlines = s.deadlines) : Machine.exec (k.command p) s = .next (u.endEvent.answer p q a) := by
  rw [h.exec_body hb, State.testHead_of_deadlines]
  exact hd

end

/-! ### CONFIGURE_RESOURCE and SET_ONLINE (R7, R17) -/

/-- A request answered OK whose whole effect is a new record for one resource. -/
theorem State.Serving.sets_resource {s : State} {p : Client} {q : Request} {k : Kind} {r : ResourceId} {x : Resource}
    {results : List Byte} (h : s.Serving p q k)
    (hb : k.body p q.params s.beginEvent = (⟨.ok, results⟩, s.beginEvent.setResource r x)) :
    ∃ t, Machine.exec (k.command p) s = .next t ∧ s.Served t p q .ok results { resources := [r] } [] ∧
      t.resource r = x := by
  refine ⟨_, h.exec_quiet hb rfl, State.Inner.served_quiet ?_ p q ⟨.ok, results⟩, by simp⟩
  exact (State.Inner.start s _).setResource (by simp) x

/-- Settles O34. -/
theorem configureAndSetOnline : Obligations.ConfigureAndSetOnline := by
  intro p q s r hr hx
  refine ⟨fun c h hc => h.sets_resource (k := .configureResource) ?_, fun h => h.sets_resource (k := .setOnline) ?_⟩
  · simp [Kind.body, configureResourceBody, hr, resourceOfByte_natByte, hc, hx, Reply.plain]
  · simp [Kind.body, setOnlineBody, hr, resourceOfByte_natByte, hx, Reply.plain]

/-! ### CLEAR_FENCE (R21, R22) -/

section
variable {p : Client} {q : Request} {s : State} {r : ResourceId}

/-- CLEAR_FENCE of a FENCED resource with a settle above 0. -/
theorem clearFenceBody_settle {params : List Byte} (hr : byteAt params 0 = natByte r.val)
    (hx : (s.resource r).state = .fenced) (hs : (s.resource r).config.settle ≠ 0) :
    clearFenceBody params s = (⟨.ok, [0x03]⟩, s.enterSettling r) := by
  have state : ((s.enterSettling r).resource r).state = .settling := by simp [State.enterSettling]
  simp only [clearFenceBody, hr, resourceOfByte_natByte, hx, if_true, State.settleOrIdle, if_neg hs, State.run_nil, state]
  rfl

/-- CLEAR_FENCE of a FENCED resource with settle 0. -/
theorem clearFenceBody_idle {params : List Byte} (hr : byteAt params 0 = natByte r.val)
    (hx : (s.resource r).state = .fenced) (hs : (s.resource r).config.settle = 0) :
    let t := (s.setResource r { s.resource r with state := .idle }).run [.pass r]
    clearFenceBody params s = (⟨.ok, [(t.resource r).state.code]⟩, t) := by
  simp only [clearFenceBody, hr, resourceOfByte_natByte, hx, if_true, State.settleOrIdle, if_pos hs]

/-- CLEAR_FENCE of the fence mark on a HELD resource. -/
theorem clearFenceBody_mark {params : List Byte} (hr : byteAt params 0 = natByte r.val)
    (hx : (s.resource r).state = .held) (hm : (s.resource r).fenceMark = true) :
    let t := (s.setResource r { s.resource r with fenceMark := false }).run [.pass r]
    clearFenceBody params s = (⟨.ok, [(t.resource r).state.code]⟩, t) := by
  simp [clearFenceBody, hr, resourceOfByte_natByte, hx, hm]

/-- A new record for a resource on which nobody waits, and the pass that follows, are together a new record. -/
theorem State.setResource_run_pass {x : Resource} (hq : x.queue = []) :
    (s.setResource r x).run [.pass r] = s.setResource r { x with starved := false } := by
  have hx : (s.setResource r x).resource r = x := s.setResource_resource_self r x
  rw [State.run_pass_empty (by rw [hx]; exact hq), hx, State.setResource_setResource]

end

/-- Settles O38. -/
theorem clearFenceEndsTheFence : Obligations.ClearFenceEndsTheFence := by
  intro p q s r h hr
  dsimp only
  refine ⟨fun hx hs => ?_, fun hx hs hq => ?_, fun hx hm hq => ?_⟩
  · have hb := clearFenceBody_settle (s := s.beginEvent) hr hx hs
    refine ⟨_, h.exec_body (k := .clearFence) hb, ?_, ?_, ?_⟩
    · exact (((State.Inner.start s _).setResource (by simp) _).arm (by simp)).served_quiet p q ⟨.ok, [0x03]⟩
    · simp [State.enterSettling]
    · exact State.entriesOf_arm_self (s.beginEvent.setResource r _) ⟨.resource r, none, .settle, _⟩
  · refine h.sets_resource (k := .clearFence) ((clearFenceBody_idle (s := s.beginEvent) hr hx hs).trans ?_)
    rw [State.setResource_run_pass, State.setResource_resource_self]
    · rfl
    · exact hq
  · refine h.sets_resource (k := .clearFence) ((clearFenceBody_mark (s := s.beginEvent) hr hx hm).trans ?_)
    rw [State.setResource_run_pass, State.setResource_resource_self]
    · simp [hx, ResourceState.code]
    · exact hq

/-! ### The SETTLE expiry (R12) -/

/-- A current SETTLE expiry of a resource on which nobody waits is a new record for it. -/
theorem settleAct_of_current {s : State} {e : Entry} {r : ResourceId} (ho : e.owner = .resource r) (h : s.Current e)
    (hq : (s.resource r).queue = []) : settleAct e s.expiryTaken
      = s.expiryTaken.setResource r { s.resource r with state := .idle, settleDeadline := none, starved := false } := by
  simp only [settleAct, (h.resource ho).2]
  exact State.setResource_run_pass hq

/-- Settles O30. -/
theorem settleExpiryIdles : Obligations.SettleExpiryIdles := by
  intro s e r howed ho h hq
  refine ⟨_, (exec_purpose .settle s).trans (by rw [State.takeExpiry_of_owed howed (h.resource ho).1]), ?_, ?_⟩
  all_goals rw [show Purpose.settle.act e s.expiryTaken = _ from settleAct_of_current ho h hq]
  · refine State.Inner.taken_quiet (m := { resources := [r] }) ?_ rfl rfl
    exact (State.Inner.startExpiry s rfl).setResource (by simp) _
  · simp

end Sys2Proof.Machine
end

section
/-! The end of a lease and of a waiter, said whole: the items of work that end them, what they reach and what they leave. -/

namespace Sys2Proof.Machine

/-! ### A lease leaves its resource (R9 to R11) -/

/-- The lease's line is cut and the lease leaves its resource's holder set. -/
def State.lostHolder (s : State) (l : Lease) : State :=
  (s.cutLine ⟨l.resource, l.holder⟩).setResource l.resource
    { s.resource l.resource with holders := (s.resource l.resource).holders.set l.holder none }

/-- The lease has left its resource, which has taken its own step. -/
def State.leftBy (s : State) (l : Lease) (cause : EndCause) : State :=
  ((s.lostHolder l).afterLeaseLeft l.resource cause).1

section
variable {s u : State} {i : LeaseSlot} {l : Lease} {m : Touched} {cuts sets : List Line}

/-- The step of a resource that a lease has left reaches its record and its settle entry. -/
theorem State.Within.afterLeaseLeft (h : s.Within u m) {r : ResourceId} (hr : r ∈ m.resources)
    (ho : .resource r ∈ m.owners) (cause : EndCause) : s.Within (u.afterLeaseLeft r cause).1 m := by
  rcases u.afterLeaseLeft_cases r cause with ⟨-, -, e⟩ | ⟨-, e, -⟩ <;> rw [e]
  · exact h
  · split
    · exact (Frame.setResource h hr _).arm ho
    · exact Frame.setResource h hr _

theorem State.Within.leftBy (h : s.Within u m) (hr : l.resource ∈ m.resources) (ho : .resource l.resource ∈ m.owners)
    (cause : EndCause) : s.Within (u.leftBy l cause) m := by
  have lost : s.Within (u.lostHolder l) m := Frame.setResource h hr _
  exact lost.afterLeaseLeft hr ho cause

theorem State.leftBy_gate (s : State) (l : Lease) (cause : EndCause) : (s.leftBy l cause).gate
    = ⟨setLine s.gate.lines ⟨l.resource, l.holder⟩ false, s.gate.held.filter fun k => !decide (k = ⟨l.resource, l.holder⟩),
      s.gate.driven ++ [.cut ⟨l.resource, l.holder⟩]⟩ := State.afterLeaseLeft_gate _ _ _

theorem State.leftBy_leaseRecord (s : State) (l : Lease) (cause : EndCause) (k : LeaseSlot) :
    (s.leftBy l cause).leaseRecord k = s.leaseRecord k := State.afterLeaseLeft_leaseRecord _ _ _ _

theorem State.leftBy_session (s : State) (l : Lease) (cause : EndCause) (c : Client) :
    (s.leftBy l cause).session c = s.session c := State.afterLeaseLeft_session _ _ _ _

/-- All that a lease reaches as it leaves its resource, but for the line. -/
theorem State.leftBy_within (s : State) (l : Lease) (cause : EndCause) :
    s.Within (s.leftBy l cause) { resources := [l.resource], owners := [.resource l.resource] } :=
  State.Within.leftBy (State.Frame.refl s rfl) (by simp) (by simp) cause

theorem State.leftBy_box (s : State) (l : Lease) (cause : EndCause) (c : Client) :
    (s.leftBy l cause).box c = s.box c := (s.leftBy_within l cause).boxes c (by simp)

theorem State.leftBy_now (s : State) (l : Lease) (cause : EndCause) : (s.leftBy l cause).now = s.now :=
  congrArg TimeBase.counter ((s.leftBy_within l cause).timeBase rfl)

theorem State.leftBy_owed (s : State) (l : Lease) (cause : EndCause) :
    (s.leftBy l cause).deadlines.owed = s.deadlines.owed := (s.leftBy_within l cause).owed rfl

theorem State.leftBy_queue (s : State) (l : Lease) (cause : EndCause) (k : ResourceId) :
    ((s.leftBy l cause).resource k).queue = (s.resource k).queue := by
  rw [State.leftBy, State.afterLeaseLeft_queue]
  by_cases hk : k = l.resource <;> simp [State.lostHolder, State.setResource_resource, hk]

theorem State.leftBy_holders (s : State) (l : Lease) (cause : EndCause) :
    ((s.leftBy l cause).resource l.resource).holders = (s.resource l.resource).holders.set l.holder none := by
  rw [State.leftBy, State.afterLeaseLeft_holders]
  simp [State.lostHolder]

/-- The lease stands in the holder set no more. -/
theorem State.leftBy_stands (s : State) (i : LeaseSlot) (l : Lease) (cause : EndCause) :
    (s.leftBy l cause).stands i l = false := by
  simp [State.stands, State.leftBy_holders]

theorem State.leftBy_resource_of_ne (s : State) (l : Lease) (cause : EndCause) {k : ResourceId} (hk : k ≠ l.resource) :
    (s.leftBy l cause).resource k = s.resource k := by
  rw [State.leftBy, State.afterLeaseLeft_resource_of_ne _ _ _ hk]
  simp [State.lostHolder, State.setResource_resource, hk]

section
variable (hx : (s.resource l.resource).state = .held ∨ (s.resource l.resource).state = .draining) (cause : EndCause)
include hx

/-- The resource's step is the one the rules give (R9 to R11). -/
theorem State.leftBy_resource :
    (s.leftBy l cause).resource l.resource = (s.resource l.resource).afterEnd l.holder cause s.now := by
  have self : (s.lostHolder l).resource l.resource
      = { s.resource l.resource with holders := (s.resource l.resource).holders.set l.holder none } := by
    simp [State.lostHolder]
  rw [State.leftBy, State.afterLeaseLeft_resource_self cause (by rw [self]; exact hx), self, Resource.afterEnd_eq]
  rfl

theorem State.leftBy_entriesOf_resource : (s.leftBy l cause).entriesOf (.resource l.resource)
    = if ((s.resource l.resource).afterEnd l.holder cause s.now).state = .settling then
        [⟨.resource l.resource, none, .settle, s.now + (s.resource l.resource).config.settle.setWidth 32⟩]
      else s.entriesOf (.resource l.resource) := by
  have self : (s.lostHolder l).resource l.resource
      = { s.resource l.resource with holders := (s.resource l.resource).holders.set l.holder none } := by
    simp [State.lostHolder]
  have now : (s.lostHolder l).now = s.now := rfl
  have e := ((s.lostHolder l).afterLeaseLeft_eq l.resource cause (by rw [self]; exact hx)).1
  rw [self, now, ← Resource.afterEnd_eq] at e
  rw [State.leftBy, e]
  split
  · exact State.entriesOf_arm_self _ ⟨.resource l.resource, none, .settle, _⟩
  · rfl

/-- What the resource's step sets off. -/
theorem State.leftBy_work : ((s.lostHolder l).afterLeaseLeft l.resource cause).2
    = if ((s.resource l.resource).afterEnd l.holder cause s.now).state = .held ∨
        ((s.resource l.resource).afterEnd l.holder cause s.now).state = .idle then [.pass l.resource] else [] := by
  have self : (s.lostHolder l).resource l.resource
      = { s.resource l.resource with holders := (s.resource l.resource).holders.set l.holder none } := by
    simp [State.lostHolder]
  rcases (s.lostHolder l).afterLeaseLeft_cases l.resource cause with ⟨h1, h2, -⟩ | ⟨-, -, e⟩
  · rw [self] at h1 h2
    exact (hx.elim h1 h2).elim
  · rw [e, self, Resource.afterEnd_eq]
    rfl

end

/-- The end of a lease that stands in its resource's holder set. -/
theorem doWork_endLease (hl : s.lease i = some l) (hs : (s.resource l.resource).holders[l.holder] = some i)
    (cause : EndCause) : doWork (.endLease i cause) s
      = (s.leftBy l cause, ((s.lostHolder l).afterLeaseLeft l.resource cause).2 ++ [.freeSlot i cause, .starvedFrom 0]) := by
  have stands : s.stands i l = true := State.stands_iff.2 hs
  simp only [doWork, State.endLeaseStep, hl, stands, if_true]
  rfl

/-- A lease that does not stand in its resource's holder set is not ended. -/
theorem doWork_endLease_of_left (hl : s.lease i = some l) (hs : (s.resource l.resource).holders[l.holder] ≠ some i)
    (cause : EndCause) : doWork (.endLease i cause) s = (s, []) := by
  have stands : s.stands i l = false := State.stands_eq_false.2 hs
  simp [doWork, State.endLeaseStep, hl, stands]

/-! ### The slot of a lease that has left is freed (R27) -/

/-- The freeing of a lease that has left its holder set reaches its slot, its entry and its holder. -/
theorem State.Within.freeLease (h : s.Within u m) (hl : u.lease i = some l) (hs : u.stands i l = false)
    (hi : i ∈ m.leases) (hc : l.holder ∈ m.sessions) (hb : l.holder ∈ m.boxes) (ho : .lease i ∈ m.owners)
    (cause : EndCause) : s.Within (u.freeLease i cause) m := by
  rw [State.freeLease_eq cause hl hs]
  exact (((Frame.disarm h ho).setBox hb _).setLeaseRecord hi _).setSession hc _

section
variable (hl : s.lease i = some l) (hs : s.stands i l = false) (cause : EndCause)
include hl hs

theorem State.freeLease_box : (s.freeLease i cause).box l.holder
    = if l.state = .active then (s.box l.holder).oneReturned else s.box l.holder := by
  rw [State.freeLease_eq cause hl hs]
  simp
  rfl

theorem State.freeLease_now : (s.freeLease i cause).now = s.now := by
  rw [State.freeLease_eq cause hl hs]
  rfl

theorem State.freeLease_owed : (s.freeLease i cause).deadlines.owed = s.deadlines.owed := by
  rw [State.freeLease_eq cause hl hs]
  rfl

theorem State.freeLease_entriesOf_self : (s.freeLease i cause).entriesOf (.lease i) = [] := by
  rw [State.freeLease_eq cause hl hs]
  exact State.entriesOf_disarm_self s (.lease i)

theorem State.freeLease_entriesOf_of_ne {o : Owner} (ho : o ≠ .lease i) :
    (s.freeLease i cause).entriesOf o = s.entriesOf o := by
  rw [State.freeLease_eq cause hl hs]
  exact State.entriesOf_disarm_of_ne s _ _ ho

end

/-! ### A lease whose end sets off nothing beyond itself (R9 to R11, R27, R47, R78) -/

/-- A new event begins where the lease stood. -/
theorem State.EndsAlone.begin (h : s.EndsAlone i l) : s.beginEvent.EndsAlone i l :=
  ⟨h.lease, h.stands, h.state, h.queue, h.starved⟩

theorem State.EndsAlone.expiryTaken (h : s.EndsAlone i l) : s.expiryTaken.EndsAlone i l :=
  ⟨h.lease, h.stands, h.state, h.queue, h.starved⟩

/-- No resource is starved when the lease has left. -/
theorem State.EndsAlone.leftBy_starved (h : s.EndsAlone i l) (cause : EndCause) (k : ResourceId) :
    ((s.leftBy l cause).resource k).starved = false := by
  by_cases hk : k = l.resource
  · subst hk
    rw [State.leftBy_resource h.state, Resource.afterEnd_eq]
    exact Resource.left_starved cause s.now (h.starved l.resource)
  · rw [State.leftBy_resource_of_ne _ _ _ hk]
    exact h.starved k

/-- The work of its end: the lease leaves its resource, and its slot is freed. -/
theorem State.EndsAlone.run_endLease (h : s.EndsAlone i l) (cause : EndCause) :
    s.run [.endLease i cause] = (s.leftBy l cause).freeLease i cause := by
  have starved := h.leftBy_starved cause
  have passes : (s.leftBy l cause).run ((s.lostHolder l).afterLeaseLeft l.resource cause).2 = s.leftBy l cause := by
    rcases (s.lostHolder l).afterLeaseLeft_work l.resource cause with e | e <;> rw [e]
    · exact State.run_nil _
    · rw [State.run_pass_empty (by rw [State.leftBy_queue]; exact h.queue)]
      have same : { (s.leftBy l cause).resource l.resource with starved := false }
          = (s.leftBy l cause).resource l.resource := by rw [← starved l.resource]
      rw [same]
      exact State.setResource_resource_eq _ _
  have few : ((s.lostHolder l).afterLeaseLeft l.resource cause).2.length ≤ 1 := by
    rcases (s.lostHolder l).afterLeaseLeft_work l.resource cause with e | e <;> simp [e]
  have next : ([.freeSlot i cause, .starvedFrom 0] : List Work) = [.freeSlot i cause] ++ [.starvedFrom 0] := rfl
  rw [State.run_item, doWork_endLease h.lease h.stands, State.run_append _ (by simp; omega), passes, next,
    State.run_append _ (by simp), State.run_single (w := .freeSlot i cause) rfl]
  have starved' : ∀ r, (((s.leftBy l cause).freeLease i cause).resource r).starved = false := by simpa using starved
  have ends := doWork_starvedFrom_none starved' 0
  exact (State.run_single (congrArg Prod.snd ends)).trans (congrArg Prod.fst ends)

/-- What its end leaves. -/
theorem State.EndsAlone.leaseEnded (h : s.EndsAlone i l) (cause : EndCause) :
    s.LeaseEnded (s.run [.endLease i cause]) i l cause
      (if l.state = .active then (s.box l.holder).oneReturned else s.box l.holder) := by
  have hl : (s.leftBy l cause).lease i = some l := by
    rw [State.lease, State.leftBy_leaseRecord]; exact h.lease
  have hs := s.leftBy_stands i l cause
  rw [h.run_endLease cause]
  refine ⟨?_, ?_, ?_, ?_, State.freeLease_entriesOf_self hl hs cause, ?_⟩
  · rw [State.freeLease_leaseRecord cause hl hs, if_pos rfl, State.leftBy_leaseRecord]
  · rw [State.freeLease_resource, State.leftBy_resource h.state]
  · rw [State.freeLease_session cause hl hs, if_pos rfl, State.leftBy_session]
    rfl
  · rw [State.freeLease_box hl hs, State.leftBy_box]
  · rw [State.freeLease_entriesOf_of_ne hl hs cause (by simp), State.freeLease_resource, State.leftBy_resource h.state,
      State.leftBy_entriesOf_resource h.state]

/-- All that its end reaches, its line being cut. -/
theorem State.Inner.endLease {owed : Bool} (h : s.Inner u { l.endTouches i with owed := owed } [] [])
    (he : u.EndsAlone i l) (cause : EndCause) :
    s.Inner (u.run [.endLease i cause]) { l.endTouches i with owed := owed } [⟨l.resource, l.holder⟩] [] ∧
      (u.run [.endLease i cause]).deadlines.owed = u.deadlines.owed := by
  have hl : (u.leftBy l cause).lease i = some l := by
    rw [State.lease, State.leftBy_leaseRecord]; exact he.lease
  have hs := u.leftBy_stands i l cause
  rw [he.run_endLease cause]
  refine ⟨⟨?_, ?_, ?_⟩, ?_⟩
  · have left := State.Within.leftBy (u := u) (l := l) h.frame (by simp [Lease.endTouches])
      (by simp [Lease.endTouches]) cause
    refine left.freeLease hl hs ?_ ?_ ?_ ?_ cause <;> simp [Lease.endTouches]
  · rw [State.freeLease_now hl hs, State.leftBy_now, h.now]
  · rw [State.freeLease_gate, State.leftBy_gate, h.gate]
    simp
  · rw [State.freeLease_owed hl hs, State.leftBy_owed]

end

/-- Settles O18: with nobody waiting and no resource starved, the end of the lease is the whole work of its event. -/
theorem leasesEnd : Obligations.LeasesEnd := by
  intro s i l h
  refine ⟨fun p q hs hv => ?_, fun e howed ho hp hcur hstate => ?_⟩
  · obtain ⟨-, rfl⟩ := State.resolveOwnLease_valid hv
    have hv' : s.beginEvent.resolveOwnLease l.holder (handleAt 32 q.params 0) = .valid i l := hv
    have hb : Kind.body l.holder .release q.params s.beginEvent
        = (.plain .ok, s.beginEvent.run [.endLease i .released]) := by
      simp only [Kind.body, releaseBody, hv']
    have inner := (State.Inner.start s (l.endTouches i)).endLease h.begin .released
    obtain ⟨h1, h2, h3, h4, h5, h6⟩ := h.begin.leaseEnded .released
    exact ⟨_, hs.exec_body hb, inner.1.served (.plain .ok), h1, h2, h3, h4, h5, h6⟩
  · have hb : Purpose.grace.act e s.expiryTaken = s.expiryTaken.run [.endLease i .forced] := by
      simp only [Purpose.act, graceAct, hcur.lease ho h.lease]
    have inner := (State.Inner.startExpiry s (m := { l.endTouches i with owed := true }) rfl).endLease h.expiryTaken
      .forced
    obtain ⟨h1, h2, h3, h4, h5, h6⟩ := h.expiryTaken.leaseEnded .forced
    rw [if_neg hstate] at h4
    refine ⟨(s.expiryTaken.run [.endLease i .forced]).endEvent, ?_, inner.1.taken rfl inner.2, h1, h2, h3, h4, h5, h6⟩
    rw [← hb, ← State.takeExpiry_of_owed howed hp, ← exec_purpose]
    rfl

end Sys2Proof.Machine
end

section
/-! The items of an event's work besides passes, checks and recalls (R9 to R11, R15, R27, R56, R65, R73, R117, R120). -/

namespace Sys2Proof.Machine

variable {s u : State} {m : Touched}

/-! ### The end of a waiter (R56, R73) -/

section
variable {j : WaiterSlot} {w : Waiter}

/-- The end of a waiter reaches its slot, its resource, its entry and its client. -/
theorem State.Within.freeWaiter (h : s.Within u m) (hw : u.waiter j = some w) (hr : w.resource ∈ m.resources)
    (hj : j ∈ m.waiters) (hc : w.client ∈ m.sessions) (ho : .waiter j ∈ m.owners) (o : Outcome) :
    s.Within (u.freeWaiter j o) m := by
  rw [State.freeWaiter_eq o hw]
  exact (((Frame.setResource h hr _).disarm ho).setWaiterRecord hj _).setSession hc _

/-- A waiter that has ended, its client's notice state being `b` (R56, steps 1 to 6). -/
theorem State.waiterLeft (hw : s.waiter j = some w) (o : Outcome) (b : NoticeBox) :
    s.WaiterLeft ((s.setBox w.client b).freeWaiter j o) j w o b := by
  have hw' : (s.setBox w.client b).waiter j = some w := hw
  rw [State.freeWaiter_eq o hw']
  refine ⟨by simp, by simp, by simp [Session.loseWaiter], by simp, ?_⟩
  exact State.entriesOf_disarm_self ((s.setBox w.client b).setResource w.resource _) (.waiter j)

/-- All that its end reaches. -/
theorem State.Within.waiterEnds (h : s.Within u m) (hw : u.waiter j = some w) (o : Outcome) (b : NoticeBox)
    (hr : w.resource ∈ m.resources) (hj : j ∈ m.waiters) (hc : w.client ∈ m.sessions) (hb : w.client ∈ m.boxes)
    (ho : .waiter j ∈ m.owners) : s.Within ((u.setBox w.client b).freeWaiter j o) m := by
  have boxed : s.Within (u.setBox w.client b) m := Frame.setBox h hb b
  exact boxed.freeWaiter hw hr hj hc ho o

/-- No client waits twice for a resource, so its waiter there is the one found (R30). -/
theorem State.waitingSlot_of_waits {r : ResourceId} {c : Client} (hq : s.QueuesAgree) (h1 : s.OneClaimLaw)
    (h : s.waitsIn r c j) : s.waitingSlot r c = some j := by
  obtain ⟨w, hw, hr, hc⟩ := h
  have found : (s.waitingSlot r c).isSome = true :=
    State.waitingSlot_isSome.2 ⟨j, ((hq r).2 j).2 ⟨w, hw, hr⟩, w, hw, hc⟩
  obtain ⟨k, hk⟩ := Option.isSome_iff_exists.1 found
  obtain ⟨v, hv, hr'⟩ := ((hq r).2 k).1 (List.mem_of_find?_eq_some hk)
  have hc' := List.find?_some hk
  rw [Option.mem_def.1 hv] at hc'
  rw [hk, (h1 r c j ⟨w, hw, hr, hc⟩).2 k ⟨v, hv, hr', by simpa using hc'⟩]

theorem State.waitingSlot_of_waits_not {r : ResourceId} {c : Client} (hq : s.QueuesAgree)
    (h : ∀ j, ¬ s.waitsIn r c j) : s.waitingSlot r c = none := by
  rw [← Option.not_isSome_iff_eq_none, State.waitingSlot_isSome]
  rintro ⟨j, hj, w, hw, hc⟩
  obtain ⟨v, hv, hr⟩ := ((hq r).2 j).1 hj
  cases (Option.mem_def.1 hw).symm.trans (Option.mem_def.1 hv)
  exact h j ⟨w, hw, hr, hc⟩

/-- The removal of a client's waiter at a session end. -/
theorem doWork_removeWaiting (hq : s.QueuesAgree) (h1 : s.OneClaimLaw) (hw : s.waiter j = some w) (o : Outcome) :
    doWork (.removeWaiting w.resource w.client o) s
      = ((s.setBox w.client ((s.box w.client).giveBack 2)).freeWaiter j o,
          if (s.resource w.resource).queue.head? = some j then [.check w.resource, .pass w.resource] else []) := by
  have hw' : (s.giveBack w.client 2).waiter j = some w := hw
  have head : (s.giveBack w.client 2).isHead w.resource j = decide ((s.resource w.resource).queue.head? = some j) := rfl
  simp only [doWork, State.removeWaitingStep, State.waitingSlot_of_waits hq h1 ⟨w, hw, rfl, rfl⟩, hw, State.endWaiter, head,
    decide_eq_true_eq]
  rfl

end

/-! ### The next starved resource (R65) -/

theorem resourceIds_ascend : resourceIds.Pairwise (· < ·) := by decide

theorem doWork_starvedFrom_none_from {n : Nat} (h : ∀ r : ResourceId, n ≤ r.val → (s.resource r).starved = false) :
    doWork (.starvedFrom n) s = (s, []) := by
  have none : s.nextStarved n = none := by simpa [State.nextStarved] using fun r _ hn => h r hn
  simp [doWork, none]

/-- The next starved resource is the one of lowest index. -/
theorem State.nextStarved_of_least {n : Nat} {r : ResourceId} (hn : n ≤ r.val) (hr : (s.resource r).starved = true)
    (least : ∀ k : ResourceId, n ≤ k.val → k < r → (s.resource k).starved = false) : s.nextStarved n = some r := by
  have found : (s.nextStarved n).isSome = true := List.find?_isSome.2 ⟨r, mem_resourceIds r, by simp [hn, hr]⟩
  obtain ⟨k, hk⟩ := Option.isSome_iff_exists.1 found
  obtain ⟨starved, before, after, split, skipped⟩ := List.find?_eq_some_iff_append.1 hk
  simp only [Bool.and_eq_true, decide_eq_true_eq] at starved
  have member : r ∈ before ++ k :: after := split ▸ mem_resourceIds r
  have ascends := split ▸ resourceIds_ascend
  rcases List.mem_append.1 member with h | h
  · have := skipped r h
    simp [hn, hr] at this
  · rcases List.mem_cons.1 h with rfl | h
    · exact hk
    · have lt : k < r := (List.pairwise_cons.1 (List.pairwise_append.1 ascends).2.1).1 r h
      rw [least k starved.1 lt] at starved
      cases starved.2

/-- Settles O26. -/
theorem workItemsTakeTheirSteps : Obligations.WorkItemsTakeTheirSteps := by
  intro s
  refine ⟨fun i l cause hl => ⟨fun hs hx => ?_, fun hs => doWork_endLease_of_left hl hs cause⟩, fun i l cause hl hs => ?_,
    fun n => ⟨doWork_starvedFrom_none_from, fun r hn hr least => ?_⟩, fun r c cause => ⟨fun h => ?_, fun i h => ?_⟩,
    fun r c o hq h1 => ⟨fun h => ?_, fun j w hw hr hc => ?_⟩⟩
  · rw [doWork_endLease hl hs]
    exact ⟨s.leftBy_within l cause, State.leftBy_resource hx cause, s.leftBy_gate l cause,
      State.leftBy_entriesOf_resource hx cause, by rw [State.leftBy_work hx]⟩
  · have left : s.stands i l = false := State.stands_eq_false.2 hs
    refine ⟨rfl, ?_, s.freeLease_gate i cause, ?_, ?_, State.freeLease_box hl left cause,
      State.freeLease_entriesOf_self hl left cause⟩
    · exact State.Within.freeLease (State.Frame.refl s rfl) hl left (by simp) (by simp) (by simp) (by simp) cause
    · exact (State.freeLease_leaseRecord cause hl left i).trans (if_pos rfl)
    · exact (State.freeLease_session cause hl left l.holder).trans (if_pos rfl)
  · simp [doWork, State.nextStarved_of_least hn hr least]
  · simp only [doWork, h]
  · simp only [doWork, h]
  · simp [doWork, State.removeWaitingStep, State.waitingSlot_of_waits_not hq h]
  · subst hr hc
    rw [doWork_removeWaiting hq h1 hw]
    refine ⟨?_, State.freeWaiter_gate _ j o, State.waiterLeft hw o _, rfl⟩
    refine State.Within.waiterEnds (State.Frame.refl s rfl) hw o _ ?_ ?_ ?_ ?_ ?_ <;> simp [Waiter.endTouches]

end Sys2Proof.Machine
end

section
/-! The 14 bytes of a configuration record and the record they spell (R6, section 9.5). -/

namespace Sys2Proof.Machine

/-! ### Bytes and bits -/

/-- A byte of a list stands where the list stands. -/
theorem byteAt_middle (before bytes after : List Byte) {i : Nat} (h : i < bytes.length) :
    byteAt (before ++ bytes ++ after) (before.length + i) = byteAt bytes i := by
  simp only [byteAt, List.getD_eq_getElem?_getD, List.append_assoc]
  rw [List.getElem?_append_right (Nat.le_add_right _ _), Nat.add_sub_cancel_left, List.getElem?_append_left h]

/-- A two-byte field spells its bytes again (section 9.1). -/
theorem halfBytes_halfOf (hi lo : Byte) : halfBytes (halfOf hi lo) = [hi, lo] := by
  have high : (hi ++ lo).extractLsb' 8 8 = hi := BitVec.extractLsb'_append_eq_left
  have low : (hi ++ lo).extractLsb' 0 8 = lo := BitVec.extractLsb'_append_eq_right
  exact congrArg₂ (fun a b => [a, b]) high low

/-- A byte below 16 is its low four bits. -/
theorem nibble_of_lt {b : Byte} (h : b.toNat < 16) : (b.setWidth 4).setWidth 8 = b := by
  apply BitVec.eq_of_toNat_eq
  simp only [BitVec.toNat_setWidth]
  omega

/-- Four flags as the low bits of a byte. -/
def flagsByte (a b c d : Bool) : Byte :=
  (BitVec.ofBool d ++ BitVec.ofBool c ++ BitVec.ofBool b ++ BitVec.ofBool a).setWidth 8

theorem flagsByte_bits (a b c d : Bool) : (flagsByte a b c d).toNat < 16 ∧ (flagsByte a b c d).getLsbD 0 = a ∧
    (flagsByte a b c d).getLsbD 1 = b ∧ (flagsByte a b c d).getLsbD 2 = c ∧ (flagsByte a b c d).getLsbD 3 = d := by
  revert a b c d; decide

/-- A byte below 16 is its four flags. -/
theorem flagsByte_of_lt {b : Byte} (h : b.toNat < 16) :
    flagsByte (b.getLsbD 0) (b.getLsbD 1) (b.getLsbD 2) (b.getLsbD 3) = b := by
  have spelled : ∀ n : BitVec 4, flagsByte ((n.setWidth 8).getLsbD 0) ((n.setWidth 8).getLsbD 1)
      ((n.setWidth 8).getLsbD 2) ((n.setWidth 8).getLsbD 3) = n.setWidth 8 := by decide
  rw [← nibble_of_lt h]
  exact spelled _

theorem ResourceConfig.modesByte_eq (c : ResourceConfig) : c.modesByte = flagsByte (decide (c.sharing = .sharedAllowed))
    (decide (c.policy = .sliced)) c.preemptible (decide (c.forcedAction = .settle)) := rfl

/-! ### The record and its bytes -/

@[simp] theorem ResourceConfig.bytes_length (c : ResourceConfig) : c.bytes.length = 14 := rfl

/-- The 14 bytes spell the same wherever they stand in the parameters. -/
theorem configAt_middle (before bytes after : List Byte) (h : bytes.length = 14) :
    configAt (before ++ bytes ++ after) before.length = configAt bytes 0 := by
  have at0 := byteAt_middle before bytes after (i := 0) (by omega)
  have at' : ∀ i < 14, byteAt (before ++ bytes ++ after) (before.length + i) = byteAt bytes i :=
    fun i hi => byteAt_middle before bytes after (by omega)
  simp only [Nat.add_zero] at at0
  simp only [configAt, halfAt, Nat.add_assoc, Nat.reduceAdd, Nat.zero_add, at0,
    at' 1 (by decide), at' 2 (by decide), at' 3 (by decide), at' 4 (by decide), at' 5 (by decide), at' 6 (by decide),
    at' 7 (by decide), at' 8 (by decide), at' 9 (by decide), at' 10 (by decide), at' 11 (by decide),
    at' 12 (by decide), at' 13 (by decide)]

/-- A record within its ranges is spelled by its bytes. -/
theorem configAt_bytes {c : ResourceConfig} (h : c.inRange = true) : configAt c.bytes 0 = some c := by
  obtain ⟨lt, b0, b1, b2, b3⟩ := flagsByte_bits (decide (c.sharing = .sharedAllowed)) (decide (c.policy = .sliced))
    c.preemptible (decide (c.forcedAction = .settle))
  rw [← ResourceConfig.modesByte_eq] at lt b0 b1 b2 b3
  have max : (natByte c.maxShared).toNat = c.maxShared :=
    natByte_toNat (by have := (ResourceConfig.inRange_iff.1 h).2.1; omega)
  have trim : (natByte c.sliceTrim.val).toNat = c.sliceTrim.val := natByte_toNat (by omega)
  have allowed : (clientSetByte c.allowed).toNat < 16 := by
    simp only [clientSetByte, BitVec.toNat_setWidth]; omega
  have sharing : (if c.modesByte.getLsbD 0 = true then Sharing.sharedAllowed else .exclusiveOnly) = c.sharing := by
    rw [b0]; cases c.sharing <;> rfl
  have policy : (if c.modesByte.getLsbD 1 = true then Policy.sliced else .term) = c.policy := by
    rw [b1]; cases c.policy <;> rfl
  have forced : (if c.modesByte.getLsbD 3 = true then ForcedAction.settle else .fence) = c.forcedAction := by
    rw [b3]; cases c.forcedAction <;> rfl
  have set : (clientSetByte c.allowed).setWidth 4 = c.allowed := by
    simp [clientSetByte]
  simp only [configAt, ResourceConfig.bytes, halfBytes, halfAt, byteAt, List.getD_cons_zero, List.getD_cons_succ,
    List.cons_append, List.nil_append, Nat.zero_add, Nat.reduceAdd, halfOf_halfBytes, max, trim, sharing, policy, forced, set,
    b2, lt, allowed, and_self, if_true, c.sliceTrim.isLt, dif_pos, h]

/-- What 14 bytes spell has these bytes. -/
theorem bytes_of_configAt {bytes : List Byte} {c : ResourceConfig} (hl : bytes.length = 14)
    (h : configAt bytes 0 = some c) : bytes = c.bytes := by
  match bytes, hl with
  | [m, x, d1, d0, t1, t0, s1, s0, tr, w1, w0, g, st, al], _ =>
    simp only [configAt, halfAt, byteAt, List.getD_cons_zero, List.getD_cons_succ, Nat.zero_add, Nat.reduceAdd,
      Option.ite_none_right_eq_some, Option.dite_none_right_eq_some, Option.some.injEq] at h
    obtain ⟨⟨hm, ha⟩, ht, -, rfl⟩ := h
    have sharing : ∀ b : Bool, decide ((if b = true then Sharing.sharedAllowed else .exclusiveOnly) = .sharedAllowed) = b := by
      decide
    have policy : ∀ b : Bool, decide ((if b = true then Policy.sliced else .term) = .sliced) = b := by decide
    have forced : ∀ b : Bool, decide ((if b = true then ForcedAction.settle else .fence) = .settle) = b := by decide
    simp only [ResourceConfig.bytes, ResourceConfig.modesByte_eq, sharing, policy, forced, flagsByte_of_lt hm,
      halfBytes_halfOf, natByte, BitVec.ofNat_toNat, BitVec.setWidth_eq, clientSetByte, nibble_of_lt ha, List.cons_append,
      List.nil_append]

/-- Settles O35. -/
theorem configRecordRoundTrip : Obligations.ConfigRecordRoundTrip := by
  intro c before bytes after hl
  rw [configAt_middle before bytes after hl, ← ResourceConfig.inRange_iff]
  refine ⟨c.bytes_length, ⟨fun h => ⟨configAt_inRange h, bytes_of_configAt hl h⟩, ?_⟩, fun h => ?_⟩
  · rintro ⟨h, rfl⟩
    exact configAt_bytes h
  · rcases h with h | h | h <;> simp only [configAt, Nat.zero_add]
    · rw [if_neg (by omega)]
    · split
      · rw [dif_neg (by omega)]
      · rfl
    · rw [if_neg (by omega)]

end Sys2Proof.Machine
end

section
/-! TAKE_OFFLINE (R18, R19, R72): the removal of the queue, the recalls of a drained resource, and the two commands. -/

namespace Sys2Proof.Machine

/-! ### The queue is removed (R72) -/

section
variable {s : State} {r : ResourceId}

theorem State.QueuesAgree.queueRemoved (h : s.QueuesAgree) (r : ResourceId) : s.QueueRemoved (s.dropQueue r) r where
  queue := by rw [h.dropQueue_resource, if_pos rfl]
  slots j hj := by rw [State.dropQueue_eq, (h.waitFor r).waiterRecord, if_pos hj]
  entries _ hj := (h.waitFor r).entriesOf hj
  sessions c := (h.waitFor r).session c

theorem State.QueuesAgree.dropQueue_box (h : s.QueuesAgree) (r : ResourceId) (c : Client) :
    (s.dropQueue r).box c = (s.box c).waitsEnded s.now (s.offlineNotices r c) := (h.waitFor r).box c

/-- What changes neither resource `r`'s queue nor a waiter nor a session leaves the queue removed. -/
theorem State.QueueRemoved.mono {t u : State} (h : s.QueueRemoved u r) (hq : (t.resource r).queue = (u.resource r).queue)
    (hw : ∀ j, t.waiterRecord j = u.waiterRecord j) (he : ∀ j, t.entriesOf (.waiter j) = u.entriesOf (.waiter j))
    (hs : ∀ c, t.session c = u.session c) : s.QueueRemoved t r where
  queue := hq.trans h.queue
  slots j hj := (hw j).trans (h.slots j hj)
  entries j hj := (he j).trans (h.entries j hj)
  sessions c := (hs c).trans (h.sessions c)

/-- All that the removal of the queue reaches within its event. -/
theorem State.QueuesAgree.inner_dropQueue (h : s.QueuesAgree) {m : Touched} (hr : r ∈ m.resources)
    (hw : (s.resource r).queue ⊆ m.waiters) (hs : clients ⊆ m.sessions) (hb : clients ⊆ m.boxes)
    (ho : (s.resource r).queue.map .waiter ⊆ m.owners) : s.Inner (s.beginEvent.dropQueue r) m [] [] := by
  have waiting : s.beginEvent.WaitFor r (s.resource r).queue := State.QueuesAgree.waitFor (s := s.beginEvent) h r
  have frame := waiting.frame
  refine State.Inner.trans (u := s.beginEvent) (m := {}) (n := waiterTouches r (s.resource r).queue) (cuts' := [])
    (State.Inner.start s {}) { frame with gate := rfl } (State.dropWaiters_now _ _) rfl (State.dropWaiters_gate _ _)
    ?_ ?_ ?_ ?_ ?_ ?_ ?_ ?_ <;> simp [waiterTouches, *]

end

/-! ### TAKE_OFFLINE without a lease (R18) -/

theorem takeOfflineBody_of_no_lease {s : State} {r : ResourceId} {params : List Byte} (hr : byteAt params 0 = natByte r.val)
    (hx : (s.resource r).state = .idle ∨ (s.resource r).state = .settling ∨ (s.resource r).state = .fenced) :
    takeOfflineBody params s
      = (⟨.ok, [0x00, 0x00, natByte (s.resource r).queue.length]⟩, s.offlineNow r) := by
  have state : ((s.offlineNow r).resource r).state = .offline := by simp [State.offlineNow]
  rcases hx with hx | hx | hx <;>
    simp only [takeOfflineBody, hr, resourceOfByte_natByte, hx, takeOfflineReply, state] <;> rfl

/-- Settles O36. -/
theorem takeOfflineWithoutLease : Obligations.TakeOfflineWithoutLease := by
  intro p q s r hs hr hx h
  have begins : s.beginEvent.QueuesAgree := h
  have resource : (s.beginEvent.offlineNow r).resource r
      = { s.resource r with state := .offline, queue := [], starved := false, settleDeadline := none } := by
    simp [State.offlineNow, begins.dropQueue_resource]
  refine ⟨_, hs.exec_body (k := .takeOffline) (takeOfflineBody_of_no_lease hr hx), ?_, resource,
    State.entriesOf_disarm_self (s.beginEvent.dropQueue r) (.resource r), ?_, fun c => begins.dropQueue_box r c⟩
  · have inner : s.Inner (s.beginEvent.dropQueue r) (s.queueTouches r) [] [] := by
      refine h.inner_dropQueue ?_ ?_ ?_ ?_ ?_ <;> simp [State.queueTouches, clients]
    exact ((inner.disarm (by simp [State.queueTouches])).setResource (by simp [State.queueTouches]) _).served_quiet p q
      ⟨.ok, [0x00, 0x00, natByte (s.resource r).queue.length]⟩
  · have removed := begins.queueRemoved r
    obtain ⟨h1, h2, h3, h4⟩ := removed.mono (t := s.beginEvent.offlineNow r) (by rw [resource, removed.queue])
      (fun _ => rfl) (fun j => State.entriesOf_disarm_of_ne _ _ _ (by simp)) fun _ => rfl
    exact ⟨h1, h2, h3, h4⟩

end Sys2Proof.Machine
end

section
/-! TAKE_OFFLINE of a HELD resource (R19): its ACTIVE leases are recalled one after another, each with a grace above 0. -/

namespace Sys2Proof.Machine

/-! ### The ACTIVE leases of a resource -/

section
variable {s : State} {r : ResourceId}

theorem State.mem_activeHolders (h : s.HoldersAgree) {i : LeaseSlot} :
    i ∈ s.activeHolders r ↔ ∃ l ∈ s.lease i, l.resource = r ∧ l.state = .active := by
  simp only [State.activeHolders, List.mem_filter, List.mem_map, Option.any_eq_true, decide_eq_true_eq]
  constructor
  · rintro ⟨⟨⟨c, _⟩, hm, rfl⟩, l, hl, ha⟩
    obtain ⟨l', hl', hr, -⟩ := (h r c _).1 (Resource.mem_holderList.1 hm)
    cases (Option.mem_def.1 hl).symm.trans (Option.mem_def.1 hl')
    exact ⟨l, hl, hr, ha⟩
  · rintro ⟨l, hl, hr, ha⟩
    exact ⟨⟨(l.holder, i), Resource.mem_holderList.2 ((h r l.holder i).2 ⟨l, hl, hr, rfl⟩), rfl⟩, l, hl, ha⟩

/-- They stand in ascending client number. -/
theorem State.activeHolders_ascend (h : s.HoldersAgree) (r : ResourceId) :
    (s.activeHolders r).Pairwise fun i i' => ∀ l ∈ s.lease i, ∀ l' ∈ s.lease i', l.holder < l'.holder := by
  refine List.Pairwise.filter _ (List.pairwise_map.2 ?_)
  have holder : ∀ a ∈ (s.resource r).holderList, ∀ l ∈ s.lease a.2, l.holder = a.1 := by
    rintro ⟨c, i⟩ hm l hl
    obtain ⟨l', hl', -, hc⟩ := (h r c i).1 (Resource.mem_holderList.1 hm)
    cases (Option.mem_def.1 hl).symm.trans (Option.mem_def.1 hl')
    exact hc
  refine (s.resource r).holderList_ascends.imp_of_mem fun {a b} ha hb lt l hl l' hl' => ?_
  rw [holder a ha l hl, holder b hb l' hl']
  exact lt

theorem State.activeHolders_length (s : State) (r : ResourceId) : (s.activeHolders r).length ≤ 4 :=
  (List.length_filter_le _ _).trans (by rw [List.length_map]; exact (s.resource r).holderCount_le)

end

/-! ### One recall after another (R74) -/

/-- The lease in slot `i` is recalled OFFLINE. -/
def State.recallOffline (s : State) (grace : Byte) (i : LeaseSlot) : State :=
  (doWork (.recallLease i .offline grace) s).1

/-- The leases in these slots are recalled OFFLINE, one after another. -/
def State.recallAll (s : State) (grace : Byte) (slots : List LeaseSlot) : State := slots.foldl (·.recallOffline grace) s

@[simp] theorem State.recallAll_nil (s : State) (grace : Byte) : s.recallAll grace [] = s := rfl

@[simp] theorem State.recallAll_cons (s : State) (grace : Byte) (i : LeaseSlot) (slots : List LeaseSlot) :
    s.recallAll grace (i :: slots) = (s.recallOffline grace i).recallAll grace slots := rfl

/-- A recall with a grace above 0 sets off nothing. -/
theorem doWork_recall_work {grace : Byte} (hg : grace ≠ 0) (s : State) (i : LeaseSlot) (reason : RecallReason) :
    (doWork (.recallLease i reason grace) s).2 = [] := by
  simp only [doWork, State.recallLease, if_neg hg]
  split
  · rfl
  · split <;> rfl

/-- A few recalls with a grace above 0, as the whole work of an event. -/
theorem State.run_recalls {grace : Byte} (hg : grace ≠ 0) (slots : List LeaseSlot) (hl : slots.length ≤ 12) (s : State) :
    s.run (slots.map fun i => .recallLease i .offline grace) = s.recallAll grace slots := by
  induction slots generalizing s with
  | nil => exact s.run_nil
  | cons i slots ih =>
    rw [List.length_cons] at hl
    have first : s.run [.recallLease i .offline grace] = s.recallOffline grace i :=
      State.run_single (doWork_recall_work hg s i .offline)
    have split := s.run_append (first := [.recallLease i .offline grace])
      (next := slots.map fun i => .recallLease i .offline grace) (by simp; omega)
    rw [State.recallAll_cons, ← ih (by omega), ← first]
    exact split

/-- These slots hold ACTIVE leases, in ascending number of their clients. -/
structure State.ToRecall (s : State) (slots : List LeaseSlot) : Prop where
  active : ∀ i ∈ slots, ∃ l, s.lease i = some l ∧ l.state = .active
  ascend : slots.Pairwise fun i i' => ∀ l ∈ s.lease i, ∀ l' ∈ s.lease i', l.holder < l'.holder

theorem State.toRecall_activeHolders {s : State} (h : s.HoldersAgree) (r : ResourceId) :
    s.ToRecall (s.activeHolders r) where
  active i hi := by
    obtain ⟨l, hl, -, ha⟩ := (State.mem_activeHolders h).1 hi
    exact ⟨l, hl, ha⟩
  ascend := State.activeHolders_ascend h r

section
variable {s u : State} {i : LeaseSlot} {l : Lease} {slots : List LeaseSlot} {grace : Byte} {m : Touched}

/-- The lease as a recall OFFLINE at `now` leaves it (R74). -/
def Lease.recalledOffline (l : Lease) (now : Tick) (grace : Byte) : Lease :=
  { l with state := .recalling .offline, phase := .grace, deadline := now + grace.setWidth 32 }

theorem State.recallOffline_eq (hl : s.lease i = some l) (ha : l.state = .active) (hg : grace ≠ 0) :
    s.recallOffline grace i = ((s.post l.holder (s.recallNotice i l .offline grace)).setLease i
      (l.recalledOffline s.now grace)).armLease i (l.recalledOffline s.now grace) :=
  congrArg Prod.fst (doWork_recall hl ha hg)

theorem State.recallOffline_leaseRecord (hl : s.lease i = some l) (ha : l.state = .active) (hg : grace ≠ 0)
    (k : LeaseSlot) : (s.recallOffline grace i).leaseRecord k
      = if k = i then { s.leaseRecord i with lease := some (l.recalledOffline s.now grace) } else s.leaseRecord k := by
  rw [State.recallOffline_eq hl ha hg]
  simp [State.setLease_leaseRecord, State.post]

theorem State.recallOffline_lease_of_ne (hl : s.lease i = some l) (ha : l.state = .active) (hg : grace ≠ 0)
    {k : LeaseSlot} (hk : k ≠ i) : (s.recallOffline grace i).lease k = s.lease k := by
  rw [State.lease, State.recallOffline_leaseRecord hl ha hg, if_neg hk]
  rfl

theorem State.recallOffline_box (hl : s.lease i = some l) (ha : l.state = .active) (hg : grace ≠ 0) (c : Client) :
    (s.recallOffline grace i).box c
      = if c = l.holder then (s.box c).post s.now (s.recallNotice i l .offline grace) else s.box c := by
  rw [State.recallOffline_eq hl ha hg]
  by_cases hc : c = l.holder <;> simp [hc]

theorem State.recallOffline_entriesOf (hl : s.lease i = some l) (ha : l.state = .active) (hg : grace ≠ 0) :
    (s.recallOffline grace i).entriesOf (.lease i)
      = [⟨.lease i, some (s.leaseRecord i).incarnation, .grace, s.now + grace.setWidth 32⟩] := by
  rw [State.recallOffline_eq hl ha hg, State.entriesOf_armLease_self]
  simp [State.leaseEntry, State.setLease_leaseRecord, State.post, Lease.recalledOffline, Phase.purpose]

/-- One recall reaches the lease's slot and entry, and its holder. -/
theorem State.Frame.recallOffline (h : s.Frame u m) (hl : u.lease i = some l) (ha : l.state = .active) (hg : grace ≠ 0)
    (hi : i ∈ m.leases) (hb : l.holder ∈ m.boxes) (ho : .lease i ∈ m.owners) : s.Frame (u.recallOffline grace i) m := by
  rw [State.recallOffline_eq hl ha hg]
  exact ((h.setBox hb _).setLeaseRecord hi _).arm ho

theorem State.recallOffline_now (s : State) (grace : Byte) (i : LeaseSlot) : (s.recallOffline grace i).now = s.now := by
  unfold State.recallOffline
  exact congrArg TimeBase.counter (kept_timeBase.doWork _ _)

theorem State.recallOffline_gate (s : State) (hl : s.lease i = some l) (ha : l.state = .active) (hg : grace ≠ 0) :
    (s.recallOffline grace i).gate = s.gate := by
  rw [State.recallOffline_eq hl ha hg]
  rfl

/-- The other leases are still to be recalled. -/
theorem State.ToRecall.tail (h : s.ToRecall (i :: slots)) (hg : grace ≠ 0) :
    i ∉ slots ∧ (s.recallOffline grace i).ToRecall slots ∧
      (∀ k ∈ slots, (s.recallOffline grace i).leaseRecord k = s.leaseRecord k) := by
  obtain ⟨l, hl, ha⟩ := h.active i (by simp)
  obtain ⟨ahead, ascend⟩ := List.pairwise_cons.1 h.ascend
  have hi : i ∉ slots := fun hi => lt_irrefl _ (ahead i hi l hl l hl)
  have ne : ∀ k ∈ slots, k ≠ i := by rintro k hk rfl; exact hi hk
  have lease : ∀ k ∈ slots, (s.recallOffline grace i).lease k = s.lease k :=
    fun k hk => State.recallOffline_lease_of_ne hl ha hg (ne k hk)
  refine ⟨hi, ⟨fun k hk => ?_, ?_⟩, fun k hk => ?_⟩
  · rw [lease k hk]
    exact h.active k (by simp [hk])
  · refine ascend.imp_of_mem fun {a b} ha hb lt => ?_
    rw [lease a ha, lease b hb]
    exact lt
  · rw [State.recallOffline_leaseRecord hl ha hg, if_neg (ne k hk)]

/-- All that the recalls reach. -/
theorem State.Frame.recallAll (h : s.Frame u m) (hr : u.ToRecall slots) (hg : grace ≠ 0) (hi : slots ⊆ m.leases)
    (hb : ∀ c, c ∈ m.boxes) (ho : slots.map .lease ⊆ m.owners) : s.Frame (u.recallAll grace slots) m := by
  induction slots generalizing u with
  | nil => exact h
  | cons i slots ih =>
    obtain ⟨l, hl, ha⟩ := hr.active i (by simp)
    rw [List.map_cons] at ho
    obtain ⟨hi', hi⟩ := List.cons_subset.1 hi
    obtain ⟨ho', ho⟩ := List.cons_subset.1 ho
    exact ih (h.recallOffline hl ha hg hi' (hb _) ho') (hr.tail hg).2.1 hi ho

theorem State.ToRecall.gate (h : s.ToRecall slots) (hg : grace ≠ 0) : (s.recallAll grace slots).gate = s.gate := by
  induction slots generalizing s with
  | nil => rfl
  | cons i slots ih =>
    obtain ⟨l, hl, ha⟩ := h.active i (by simp)
    exact (ih (h.tail hg).2.1).trans (s.recallOffline_gate hl ha hg)

/-- A client none of whose leases is recalled keeps its notice state. -/
theorem State.ToRecall.box_of_ne (h : s.ToRecall slots) (hg : grace ≠ 0) {c : Client}
    (hc : ∀ i ∈ slots, ∀ l ∈ s.lease i, l.holder ≠ c) : (s.recallAll grace slots).box c = s.box c := by
  induction slots generalizing s with
  | nil => rfl
  | cons i slots ih =>
    obtain ⟨l, hl, ha⟩ := h.active i (by simp)
    obtain ⟨-, rest, same⟩ := h.tail hg
    have other : c ≠ l.holder := (hc i (by simp) l hl).symm
    rw [State.recallAll_cons, ih rest, State.recallOffline_box hl ha hg, if_neg other]
    intro k hk l' hl'
    rw [State.lease, same k hk] at hl'
    exact hc k (by simp [hk]) l' hl'

/-- What each recall leaves: the lease RECALLING with its grace deadline and entry, and its holder with the notice. -/
theorem State.ToRecall.recalled (h : s.ToRecall slots) (hg : grace ≠ 0) {k : LeaseSlot} {l : Lease} (hk : k ∈ slots)
    (hl : s.lease k = some l) : s.LeaseRecalled (s.recallAll grace slots) k l .offline grace := by
  induction slots generalizing s with
  | nil => cases hk
  | cons i slots ih =>
    obtain ⟨li, hli, hai⟩ := h.active i (by simp)
    obtain ⟨hi, rest, same⟩ := h.tail hg
    rw [State.recallAll_cons]
    rcases List.mem_cons.1 hk with rfl | hk
    · cases hli.symm.trans hl
      have frame := State.Frame.recallAll (m := { leases := slots, boxes := clients, owners := slots.map .lease })
        (State.Frame.refl (s.recallOffline grace k) rfl) rest hg (by simp) mem_clients (by simp)
      have box : ((s.recallOffline grace k).recallAll grace slots).box l.holder = (s.recallOffline grace k).box l.holder := by
        refine rest.box_of_ne hg fun a ha la hla => ?_
        rw [State.lease, same a ha] at hla
        exact ((List.pairwise_cons.1 h.ascend).1 a ha l hl la hla).ne'
      refine ⟨?_, ?_, ?_⟩
      · rw [frame.leases k hi, State.recallOffline_leaseRecord hl hai hg, if_pos rfl]
        rfl
      · rw [box, State.recallOffline_box hl hai hg, if_pos rfl]
      · rw [frame.entriesOf (by simpa using hi), State.recallOffline_entriesOf hl hai hg]
    · have record := same k hk
      have hl' : (s.recallOffline grace i).lease k = some l := by rw [State.lease, record]; exact hl
      have box : (s.recallOffline grace i).box l.holder = s.box l.holder := by
        rw [State.recallOffline_box hli hai hg, if_neg]
        exact ((List.pairwise_cons.1 h.ascend).1 k hk li hli l hl).ne'
      have later := ih rest hk hl'
      obtain ⟨slot, post, entry⟩ := later
      rw [record] at slot entry
      rw [State.recallOffline_now] at slot post entry
      refine ⟨slot, ?_, entry⟩
      rw [post, box]
      simp only [State.recallNotice, State.leaseHandle, record]

end

/-! ### TAKE_OFFLINE of a HELD resource -/

theorem State.activeHolders_beginDraining {s : State} (h : s.QueuesAgree) (r : ResourceId) :
    (s.beginDraining r).activeHolders r = s.activeHolders r := by
  have holders : ((s.beginDraining r).resource r).holders = (s.resource r).holders := by
    simp [State.beginDraining, h.dropQueue_resource]
  have lease : ∀ i, (s.beginDraining r).lease i = s.lease i := fun i => State.dropWaiters_lease _ _ i
  simp only [State.activeHolders, Resource.holderList, holders, lease]

/-- The resource is DRAINING with its queue gone and its marks clear. -/
theorem State.beginDraining_resource {s : State} (h : s.QueuesAgree) (r : ResourceId) : (s.beginDraining r).resource r
    = { s.resource r with state := .draining, queue := [], starved := false, fenceMark := false } := by
  simp [State.beginDraining, h.dropQueue_resource]

theorem takeOfflineBody_of_held {s : State} {r : ResourceId} {params : List Byte} (hr : byteAt params 0 = natByte r.val)
    (hx : (s.resource r).state = .held) (h : s.QueuesAgree) :
    let v := (s.beginDraining r).run
      ((s.activeHolders r).map fun i => .recallLease i .offline (s.resource r).config.grace)
    takeOfflineBody params s = (⟨.ok, [(v.resource r).state.code, natByte (s.activeHolders r).length,
      natByte (s.resource r).queue.length]⟩, v) := by
  have grace : ((s.beginDraining r).resource r).config.grace = (s.resource r).config.grace := by
    rw [State.beginDraining_resource h]
  simp only [takeOfflineBody, hr, resourceOfByte_natByte, hx, takeOfflineReply, State.drainRecalls,
    State.activeHolders_beginDraining h, grace, List.length_map]

theorem State.QueuesAgree.inner_beginDraining {s : State} {r : ResourceId} (h : s.QueuesAgree) {m : Touched}
    (hr : r ∈ m.resources) (hw : (s.resource r).queue ⊆ m.waiters) (hs : clients ⊆ m.sessions) (hb : clients ⊆ m.boxes)
    (ho : (s.resource r).queue.map .waiter ⊆ m.owners) : s.Inner (s.beginEvent.beginDraining r) m [] [] :=
  (h.inner_dropQueue hr hw hs hb ho).setResource hr _

/-- The event of a drained resource, with a grace above 0: what it leaves, and all that it reaches. -/
theorem State.drained {s : State} {r : ResourceId} (h : s.QueuesAgree) (ho : s.HoldersAgree) {grace : Byte}
    (hg : grace ≠ 0) :
    let recalled := s.activeHolders r
    let u := s.beginEvent.beginDraining r
    let v := u.recallAll grace recalled
    u.ToRecall recalled ∧ u.Frame v { leases := recalled, boxes := clients, owners := recalled.map .lease } ∧
      s.Inner v { s.queueTouches r with
        leases := recalled, owners := (s.queueTouches r).owners ++ recalled.map .lease } [] [] := by
  intro recalled u v
  have lease : ∀ i, u.lease i = s.lease i := fun i => State.dropWaiters_lease s.beginEvent _ i
  have active := State.toRecall_activeHolders ho r
  have toRecall : u.ToRecall recalled :=
    ⟨fun i hi => by rw [lease]; exact active.active i hi, active.ascend.imp fun lt => by rw [lease, lease]; exact lt⟩
  have frame := State.Frame.recallAll (m := { leases := recalled, boxes := clients, owners := recalled.map .lease })
    (State.Frame.refl u rfl) toRecall hg (by simp) mem_clients (by simp)
  refine ⟨toRecall, frame, ?_⟩
  have inner : s.Inner u (s.queueTouches r) [] [] := by
    refine h.inner_beginDraining ?_ ?_ ?_ ?_ ?_ <;> simp [State.queueTouches, clients]
  have gate : v.gate = ⟨u.gate.lines, [], u.gate.driven ++ []⟩ := by
    rw [toRecall.gate hg, inner.gate]
    simp
  refine State.Inner.trans (n := { leases := recalled, boxes := clients, owners := recalled.map .lease }) (cuts' := [])
    inner { frame with gate := rfl } (congrArg TimeBase.counter (frame.timeBase rfl)) rfl gate ?_ ?_ ?_ ?_ ?_ ?_ ?_ ?_
  all_goals simp [State.queueTouches, clients]

/-- Settles O37. -/
theorem takeOfflineDrains : Obligations.TakeOfflineDrains := by
  intro p q s r hs hr hx h ho
  have begins : s.beginEvent.QueuesAgree := h
  have resource := State.beginDraining_resource begins r
  have removed : s.QueueRemoved (s.beginEvent.beginDraining r) r := by
    obtain ⟨h1, h2, h3, h4⟩ := begins.queueRemoved r
    exact ⟨by rw [resource], h2, h3, h4⟩
  have exec := hs.exec_body (k := .takeOffline) (takeOfflineBody_of_held (s := s.beginEvent) hr hx begins)
  refine ⟨s.activeHolders r, fun i => State.mem_activeHolders ho, State.activeHolders_ascend ho r,
    ⟨s.beginEvent.beginDraining r, ?_, resource, removed, fun c => begins.dropQueue_box r c, exec⟩, fun hg => ?_⟩
  · refine h.inner_beginDraining ?_ ?_ ?_ ?_ ?_ <;> simp [State.queueTouches, clients]
  · obtain ⟨toRecall, frame, inner⟩ := State.drained (r := r) h ho hg
    have recalls := State.run_recalls hg (s.activeHolders r) ((s.activeHolders_length r).trans (by decide))
      (s.beginEvent.beginDraining r)
    have now : (s.beginEvent.beginDraining r).now = s.now := State.dropWaiters_now s.beginEvent _
    have record : ∀ i, (s.beginEvent.beginDraining r).leaseRecord i = s.leaseRecord i :=
      fun i => State.dropWaiters_leaseRecord s.beginEvent _ i
    have box : ∀ c, (s.beginEvent.beginDraining r).box c = (s.box c).waitsEnded s.now (s.offlineNotices r c) :=
      fun c => begins.dropQueue_box r c
    have draining := (frame.resources r (by simp)).trans resource
    rw [show (s.beginEvent.activeHolders r) = s.activeHolders r from rfl,
      show (s.beginEvent.resource r) = s.resource r from rfl, recalls] at exec
    have state : ((((s.beginEvent.beginDraining r).recallAll (s.resource r).config.grace (s.activeHolders r)).resource
        r).state).code = 0x05 := by rw [draining]; rfl
    rw [state] at exec
    refine ⟨_, exec, inner.served_quiet p q _, draining, ?_, fun i hi l hl => ?_, fun c hc => ?_⟩
    · obtain ⟨h1, h2, h3, h4⟩ := removed.mono (congrArg Resource.queue (frame.resources r (by simp)))
        (fun j => frame.waiters j (by simp)) (fun j => frame.entriesOf (by simp)) fun c => frame.sessions c (by simp)
      exact ⟨h1, h2, h3, h4⟩
    · have hl' : (s.beginEvent.beginDraining r).lease i = some l := by
        rw [State.lease, record]; exact hl
      obtain ⟨slot, post, entry⟩ := toRecall.recalled hg hi hl'
      rw [record, now] at slot entry
      have notice : (s.beginEvent.beginDraining r).recallNotice i l .offline (s.resource r).config.grace
          = s.recallNotice i l .offline (s.resource r).config.grace := by
        simp only [State.recallNotice, State.leaseHandle, record]
      rw [now, box, notice] at post
      exact ⟨slot, entry, post⟩
    · exact (toRecall.box_of_ne hg fun i hi l hl => hc i hi l (by rwa [State.lease, record] at hl)).trans (box c)

end Sys2Proof.Machine
end

section
/-! The view of a resource (R23, R24, R168, section 9.7). -/

namespace Sys2Proof.Machine

variable {s : State} {r : ResourceId}

/-- The leases of a resource, in the order of its holder set. -/
def State.heldLeases (s : State) (r : ResourceId) : List Lease := (s.resource r).holderList.filterMap fun h => s.lease h.2

/-- Each place of the holder set names a lease of its client on the resource. -/
theorem State.HoldersAgree.lease_of_mem (h : s.HoldersAgree) {a : Client × LeaseSlot}
    (ha : a ∈ (s.resource r).holderList) : ∃ l, s.lease a.2 = some l ∧ l.resource = r ∧ l.holder = a.1 :=
  (h r a.1 a.2).1 (Resource.mem_holderList.1 ha)

theorem State.heldLeases_length (h : s.HoldersAgree) : (s.heldLeases r).length = (s.resource r).holderCount := by
  refine List.filterMap_length_eq_length.2 fun a ha => ?_
  obtain ⟨l, hl, -⟩ := State.HoldersAgree.lease_of_mem h ha
  simp [hl]

theorem State.mem_heldLeases (h : s.HoldersAgree) {l : Lease} :
    l ∈ s.heldLeases r ↔ l.resource = r ∧ ∃ i, s.lease i = some l := by
  rw [State.heldLeases, List.mem_filterMap]
  constructor
  · rintro ⟨a, ha, hl⟩
    obtain ⟨l', hl', hr, -⟩ := State.HoldersAgree.lease_of_mem h ha
    cases hl.symm.trans hl'
    exact ⟨hr, a.2, hl⟩
  · rintro ⟨hr, i, hl⟩
    exact ⟨(l.holder, i), Resource.mem_holderList.2 ((h r l.holder i).2 ⟨l, hl, hr, rfl⟩), hl⟩

/-- They stand in ascending client number. -/
theorem State.heldLeases_ascend (h : s.HoldersAgree) : (s.heldLeases r).Pairwise fun l l' => l.holder < l'.holder := by
  refine List.pairwise_filterMap.2 ((s.resource r).holderList_ascends.imp_of_mem fun {a b} ha hb lt l hl l' hl' => ?_)
  obtain ⟨m, hm, -, hma⟩ := State.HoldersAgree.lease_of_mem h ha
  obtain ⟨n, hn, -, hnb⟩ := State.HoldersAgree.lease_of_mem h hb
  cases hm.symm.trans hl
  cases hn.symm.trans hl'
  rwa [hma, hnb]

theorem State.holderEntries_eq (h : s.HoldersAgree) :
    s.holderEntries r = (s.heldLeases r).map fun l => l.holderEntry l.holder s.now := by
  rw [State.heldLeases, List.map_filterMap]
  refine List.filterMap_congr fun a ha => ?_
  obtain ⟨l, hl, -, hc⟩ := State.HoldersAgree.lease_of_mem h ha
  simp [hl, hc]

theorem Resource.settleRemaining_of_settling {x : Resource} {due : Tick} (now : Tick) (hx : x.state = .settling)
    (hd : x.settleDeadline = some due) : x.settleRemaining now = (remaining now due).setWidth 8 := by
  simp [Resource.settleRemaining, hx, hd]

theorem Resource.settleRemaining_of_not_settling {x : Resource} (now : Tick) (hx : x.state ≠ .settling) :
    x.settleRemaining now = 0x00 := by
  unfold Resource.settleRemaining
  split
  · contradiction
  · rfl

/-- Settles O43. -/
theorem resourceViewLayout : Obligations.ResourceViewLayout := by
  intro s r h _
  have left : ∀ due : Tick, (if (s.now - due).toNat < 2 ^ 31 then (0 : Tick) else due - s.now) = remaining s.now due :=
    fun due => (remaining_eq s.now due).symm
  simp only [left]
  refine ⟨s.heldLeases r, (s.resource r).settleRemaining s.now, s.headUrgency r, ?_, State.holderEntries_eq h,
    fun l => State.mem_heldLeases h, State.heldLeases_ascend h,
    fun due hx hd => Resource.settleRemaining_of_settling s.now hx hd, Resource.settleRemaining_of_not_settling s.now,
    fun hq => ?_, fun j rest hq w hw => ?_⟩
  · rw [State.heldLeases_length h]
    simp only [State.resourceView, State.holderEntries_eq h, List.flatMap_map]
    rfl
  · simp [State.headUrgency, hq]
  · simp [State.headUrgency, hq, Option.mem_def.1 hw]

end Sys2Proof.Machine
end

section
/-! Events that set off more: each is its own first step and then the work which that step sets off. -/

namespace Sys2Proof.Machine

variable {s u : State} {p : Client} {q : Request}

/-! ### The end of a waiter as an event's first step (R67, R69) -/

section
variable {j : WaiterSlot} {w : Waiter}

/-- All that the end of a waiter reaches within its event. -/
theorem State.Inner.waiterEnds {owed : Bool} (h : s.Inner u { w.endTouches j with owed := owed } [] [])
    (hw : u.waiter j = some w) (o : Outcome) (b : NoticeBox) :
    s.Inner ((u.setBox w.client b).freeWaiter j o) { w.endTouches j with owed := owed } [] [] := by
  have now : ((u.setBox w.client b).freeWaiter j o).now = u.now := State.freeWaiter_now (u.setBox w.client b) j o
  have gate : ((u.setBox w.client b).freeWaiter j o).gate = u.gate := State.freeWaiter_gate (u.setBox w.client b) j o
  refine ⟨State.Within.waiterEnds (u := u) h.frame hw o b ?_ ?_ ?_ ?_ ?_, now.trans h.now, gate.trans h.gate⟩ <;>
    simp [Waiter.endTouches]

/-- A post of a reserved notice and a return, as one change of the client's notice state. -/
theorem State.post_giveBack (s : State) (c : Client) (body : NoticeBody) (n : Nat) :
    (s.post c body).giveBack c n = s.setBox c (((s.box c).post s.now body).giveBack n) := by
  simp [State.post, State.giveBack, State.setBox, State.box]

theorem State.freeWaiter_owed (hw : s.waiter j = some w) (o : Outcome) :
    (s.freeWaiter j o).deadlines.owed = s.deadlines.owed := by
  rw [State.freeWaiter_eq o hw]
  rfl

/-- The end of a waiter, and what it sets off where the waiter was the head. -/
theorem State.endWaiter_setBox (s : State) (j : WaiterSlot) (w : Waiter) (o : Outcome) (b : NoticeBox) :
    (s.setBox w.client b).endWaiter j w o = ((s.setBox w.client b).freeWaiter j o,
      if (s.resource w.resource).queue.head? = some j then [.check w.resource, .pass w.resource] else []) := by
  by_cases h : (s.resource w.resource).queue.head? = some j <;> simp [State.endWaiter, State.isHead, h]

/-- CANCEL of the client's waiter. -/
theorem cancelBody_of_valid {params : List Byte} (h : s.resolveWaiter p (handleAt 24 params 0) = .valid j w) :
    cancelBody p params s = (⟨.ok, []⟩,
      ((s.setBox w.client ((s.box w.client).giveBack 2)).freeWaiter j .cancelled).run
        (if (s.resource w.resource).queue.head? = some j then [.check w.resource, .pass w.resource] else [])) := by
  obtain ⟨-, rfl⟩ := State.resolveWaiter_valid h
  have ends := s.endWaiter_setBox j w .cancelled ((s.box w.client).giveBack 2)
  simp only [cancelBody, h, State.giveBack, ends]
  rfl

/-- A current WAIT expiry. -/
theorem waitAct_of_current {e : Entry} (ho : e.owner = .waiter j) (hw : s.waiter j = some w) (h : s.Current e) :
    waitAct e s.expiryTaken
      = ((s.expiryTaken.setBox w.client ((s.box w.client).waitsEnded s.now [s.waitEndedNotice j w .timedOut])).freeWaiter
          j .timedOut).run
        (if (s.resource w.resource).queue.head? = some j then [.check w.resource, .pass w.resource] else []) := by
  have ends := s.expiryTaken.endWaiter_setBox j w .timedOut
    ((s.box w.client).waitsEnded s.now [s.waitEndedNotice j w .timedOut])
  simp only [waitAct, (h.waiter ho hw).2, State.post_giveBack]
  exact congrArg (fun next : State × List Work => next.1.run next.2) ends

end

/-! ### The end of a session (R117, R120) -/

/-- The context closed and the notice queue emptied, said field by field. -/
theorem State.closeContext_eq (s : State) (c : Client) (e : SessionEnd) : s.closeContext c e
    = (s.setBox c { s.box c with queue := [], reservations := 0, warnLost := false, attention := false }).setSession c
        { s.session c with isOpen := false, lastEnd := e } := rfl

/-- The end of a session, said whole: its waiters, its leases, its context; and the counts it reports. -/
theorem State.endSession_eq (s : State) (c : Client) (o : Outcome) (cause : EndCause) (e : SessionEnd) :
    let waiting := s.run (resourceIds.map fun r => .removeWaiting r c o)
    let t := waiting.run (resourceIds.map fun r => .endHolding r c cause)
    s.endSession c o cause e
      = ((t.setBox c { t.box c with queue := [], reservations := 0, warnLost := false, attention := false }).setSession c
          { t.session c with isOpen := false, lastEnd := e }, (waiting.session c).leaseCount, (s.session c).waiterCount) := by
  intro waiting t
  exact Prod.ext (State.closeContext_eq t c e) rfl

theorem State.testHead_setPort (s t : State) (p : Client) (x : Port) :
    (s.testHead t).setPort p x = s.testHead (t.setPort p x) := by
  have same : (t.setPort p x).deadlines = t.deadlines := rfl
  unfold State.testHead
  rw [same]
  split <;> rfl

/-- A teardown claim for an OPEN session. -/
theorem exec_teardownClaim_of_open (ho : (s.port p).offer = some .teardown) (h : (s.session p).isOpen = true) :
    exec (.teardownClaim p) s = .next (s.testHead ((s.beginEvent.teardown p .portReset).1.endEvent.setPort p
      (Port.offerTaken { s.port p with owedTeardowns := (s.port p).owedTeardowns - 1, withdrawn := none }))) := by
  have torn : s.takeTeardown p = s.testHead (s.beginEvent.teardown p .portReset).1.endEvent := by
    rw [State.takeTeardown, if_pos h]
  have port : (s.beginEvent.teardown p .portReset).1.port p = s.port p :=
    congrArg (fun ports => ports[p])
      (keptByRequests_ports.endSession s.beginEvent p .tornDown .tornDown .portReset)
  show execTeardownClaim p s = _
  simp only [execTeardownClaim, ho, torn, State.testHead_port, State.endEvent_port, port, State.testHead_setPort]
  rfl

/-! ### The requests -/

/-- DOWNGRADE of an ACTIVE EXCLUSIVE lease where sharing is allowed. -/
theorem downgradeBody_of_active {params : List Byte} {i : LeaseSlot} {l : Lease}
    (h : s.resolveOwnLease p (handleAt 32 params 0) = .valid i l) (ha : l.state = .active) (hm : l.mode = .exclusive)
    (hs : (s.resource l.resource).config.sharing = .sharedAllowed) :
    let t := (s.setLease i { l with mode := .shared }).run [.pass l.resource]
    downgradeBody p params s = (⟨.ok, [natByte (t.resource l.resource).holderCount]⟩, t) := by
  simp [downgradeBody, h, ha, hm, hs]

/-- REVOKE of an ACTIVE lease. -/
theorem revokeBody_of_active {params : List Byte} {i : LeaseSlot} {l : Lease} {immediate : Bool}
    (h : s.resolveLease (handleAt 32 params 0) = .valid i l) (hb : byteAt params 2 = yesNo immediate)
    (ha : l.state = .active) :
    let grace := if immediate = true then 0 else (s.resource l.resource).config.grace
    revokeBody params s = (⟨.ok, if grace = 0 then 0x02 :: tickBytes 0 else 0x01 :: tickBytes (s.now + grace.setWidth 32)⟩,
      s.run [.recallLease i .revoked grace]) := by
  intro grace
  have reply : revokeReply grace s.now
      = ⟨.ok, if grace = 0 then 0x02 :: tickBytes 0 else 0x01 :: tickBytes (s.now + grace.setWidth 32)⟩ := by
    unfold revokeReply
    split <;> rfl
  simp only [revokeBody, h, hb, yesNoOfByte_yesNo, ha, if_true, ← reply]
  rfl

/-- REVOKE at once of a RECALLING lease. -/
theorem revokeBody_of_recalling {params : List Byte} {i : LeaseSlot} {l : Lease}
    (h : s.resolveLease (handleAt 32 params 0) = .valid i l) (hb : byteAt params 2 = yesNo true)
    (ha : l.state ≠ .active) :
    revokeBody params s = (⟨.ok, 0x02 :: tickBytes 0⟩, s.run [.endLease i .forced]) := by
  simp only [revokeBody, h, hb, yesNoOfByte_yesNo, if_neg ha, if_true]
  rfl

/-- EVICT_CLIENT of a client with an OPEN session. -/
theorem evictClientBody_of_open {params : List Byte} {c : Client} (hc : byteAt params 0 = natByte c.val)
    (h : (s.session c).isOpen = true) : evictClientBody params s
      = (⟨.ok, [natByte (s.teardown c .evicted).2.1, natByte (s.teardown c .evicted).2.2]⟩, (s.teardown c .evicted).1) := by
  simp [evictClientBody, hc, clientOfByte_natByte, h]

/-! ### The expiries -/

/-- The taking of the owed expiry, its effect and the delivery test. -/
theorem exec_expiry {e : Entry} {k : Purpose} {t : State} (howed : s.deadlines.owed = some e) (hp : e.purpose = k)
    (h : k.act e s.expiryTaken = t) : exec k.command s = .next t.endEvent.deliver := by
  rw [exec_purpose, State.takeExpiry_of_owed howed hp, h]

/-- Settles O32. -/
theorem eventsRunTheirWork : Obligations.EventsRunTheirWork := by
  intro p q s
  refine ⟨fun i l hs hv => ?_, fun i l hs hv ha hm hx => ?_, fun j w hs hv => ?_, fun i l immediate hs hv hb => ?_,
    fun hs => hs.exec_body (k := .closeSession) ?_, fun c hs hc h => ?_, fun ho h => ?_,
    fun r hs hr => ⟨fun hx h0 => ?_, fun hx hm => ?_⟩,
    fun e howed h => ⟨fun i l ho hl => ⟨fun hp => ?_, fun hp hq => ?_, fun hp => ?_⟩, fun j w ho hw => ?_, fun r ho => ?_⟩⟩
  · have hv' : s.beginEvent.resolveOwnLease p (handleAt 32 q.params 0) = .valid i l := hv
    exact hs.exec_body (k := .release) (by simp only [Kind.body, releaseBody, hv']; rfl)
  · exact hs.exec_body (k := .downgrade) (downgradeBody_of_active (s := s.beginEvent) hv ha hm hx)
  · obtain ⟨hw, rfl⟩ := State.resolveWaiter_valid hv
    obtain ⟨h1, h2, h3, h4, h5⟩ := State.waiterLeft (s := s.beginEvent) hw .cancelled ((s.box w.client).giveBack 2)
    exact ⟨_, (State.Inner.start s (w.endTouches j)).waiterEnds hw .cancelled ((s.box w.client).giveBack 2),
      ⟨h1, h2, h3, h4, h5⟩, hs.exec_body (k := .cancel) (cancelBody_of_valid (s := s.beginEvent) hv)⟩
  · refine ⟨fun ha => hs.exec_body (k := .revoke) (revokeBody_of_active (s := s.beginEvent) hv hb ha), fun ha hi => ?_⟩
    subst hi
    exact hs.exec_body (k := .revoke) (revokeBody_of_recalling (s := s.beginEvent) hv hb ha)
  · simp only [Kind.body, closeSessionBody, State.endSession_eq]
    rfl
  · refine hs.exec_body (k := .evictClient) ((evictClientBody_of_open (s := s.beginEvent) hc h).trans ?_)
    simp only [State.teardown, State.endSession_eq]
    rfl
  · rw [exec_teardownClaim_of_open ho h]
    simp only [State.teardown, State.endSession_eq]
  · exact hs.exec_body (k := .clearFence) (clearFenceBody_idle (s := s.beginEvent) hr hx h0)
  · exact hs.exec_body (k := .clearFence) (clearFenceBody_mark (s := s.beginEvent) hr hx hm)
  · exact exec_expiry (k := .expire) howed hp (by simp only [Purpose.act, expireAct, h.lease ho hl]; rfl)
  · have hq' : (s.expiryTaken.resource l.resource).queue ≠ [] := hq
    exact exec_expiry (k := .slice) howed hp (by simp only [Purpose.act, sliceAct, h.lease ho hl, if_neg hq']; rfl)
  · exact exec_expiry (k := .grace) howed hp (by simp only [Purpose.act, graceAct, h.lease ho hl]; rfl)
  · have inner := (State.Inner.startExpiry s (m := { w.endTouches j with owed := true }) rfl).waiterEnds hw .timedOut
      ((s.box w.client).waitsEnded s.now [s.waitEndedNotice j w .timedOut])
    obtain ⟨h1, h2, h3, h4, h5⟩ := State.waiterLeft (s := s.expiryTaken) hw .timedOut
      ((s.box w.client).waitsEnded s.now [s.waitEndedNotice j w .timedOut])
    exact ⟨_, inner, State.freeWaiter_owed (s := s.expiryTaken.setBox w.client _) hw .timedOut, ⟨h1, h2, h3, h4, h5⟩,
      exec_expiry (k := .wait) howed (h.waiter ho hw).1 (waitAct_of_current ho hw h)⟩
  · exact exec_expiry (k := .settle) howed (h.resource ho).1 (by simp only [Purpose.act, settleAct, (h.resource ho).2]; rfl)

end Sys2Proof.Machine
end

section
/-!
SUPPORT. Within an engine event: what each write of a lease, a notice state, a session or a held-back set adds to what the
event has done; a lease rewritten with its entry armed again; and a request that its own checks refuse.
-/

namespace Sys2Proof.Machine

/-! ### Within an event after one more write -/

section
variable {s u : State} {m : Touched} {cuts sets : List Line}

theorem State.Inner.setLeaseRecord (h : s.Inner u m cuts sets) {i : LeaseSlot} (hi : i ∈ m.leases) (x : LeaseRecord) :
    s.Inner (u.setLeaseRecord i x) m cuts sets := ⟨h.frame.setLeaseRecord hi x, h.now, h.gate⟩

theorem State.Inner.setBox (h : s.Inner u m cuts sets) {c : Client} (hc : c ∈ m.boxes) (x : NoticeBox) :
    s.Inner (u.setBox c x) m cuts sets := ⟨h.frame.setBox hc x, h.now, h.gate⟩

theorem State.Inner.setSession (h : s.Inner u m cuts sets) {c : Client} (hc : c ∈ m.sessions) (x : Session) :
    s.Inner (u.setSession c x) m cuts sets := ⟨h.frame.setSession hc x, h.now, h.gate⟩

theorem State.Inner.holdSet (h : s.Inner u m cuts sets) (x : Line) : s.Inner (u.holdSet x) m cuts (sets ++ [x]) :=
  ⟨h.frame, h.now, by rw [State.holdSet_gate, h.gate]⟩

/-- A lease begins: all that it reaches, its line's set being held back (R8, R16, R35). -/
theorem State.Inner.beginLease (h : s.Inner u m cuts sets) {i : LeaseSlot} {r : ResourceId} {c : Client}
    (hi : i ∈ m.leases) (hr : r ∈ m.resources) (hc : c ∈ m.sessions) (ho : .lease i ∈ m.owners) (mode : Mode)
    (urgency : Urgency) (iv : Interval) :
    s.Inner (u.beginLease i r c mode urgency iv) m cuts (sets ++ [⟨r, c⟩]) :=
  ((((h.setLeaseRecord hi _).arm ho).setResource hr _).holdSet _).setSession hc _

end

/-! ### A lease rewritten, its entry armed again (R26, R101) -/

/-- The lease in slot `i` becomes `l`, and its entry is armed as `l` says. -/
def State.rearmed (s : State) (i : LeaseSlot) (l : Lease) : State := (s.setLease i l).armLease i l

section
variable (s : State) (i : LeaseSlot) (l : Lease)

theorem State.rearmed_leaseRecord : (s.rearmed i l).leaseRecord i = { s.leaseRecord i with lease := some l } := by
  simp [State.rearmed, State.setLease_leaseRecord]

theorem State.rearmed_entriesOf : (s.rearmed i l).entriesOf (.lease i) = [s.leaseEntry i l] := by
  rw [State.rearmed, State.entriesOf_armLease_self]
  simp [State.leaseEntry]

theorem State.rearmed_box (c : Client) : (s.rearmed i l).box c = s.box c := rfl

theorem State.rearmed_owed : (s.rearmed i l).deadlines.owed = s.deadlines.owed := rfl

variable {s i} {u : State} {m : Touched} {cuts sets : List Line}

theorem State.Inner.rearmed (h : s.Inner u m cuts sets) (hi : i ∈ m.leases) (ho : .lease i ∈ m.owners) :
    s.Inner (u.rearmed i l) m cuts sets := (h.setLeaseRecord hi _).arm ho

end

/-! ### Requests that their own checks refuse (R2) -/

/-- A request whose own checks answer without a change: the command, and its answer as its only effect. -/
theorem State.Serving.refuses {s : State} {p : Client} {q : Request} {k : Kind} {status : Status} {results : List Byte}
    (h : s.Serving p q k) (hb : k.body p q.params s.beginEvent = (⟨status, results⟩, s.beginEvent)) :
    ∃ t, Machine.exec (k.command p) s = .next t ∧ s.Refused t p q status results :=
  ⟨_, Machine.exec_kind k p s, h.refused hb⟩

end Sys2Proof.Machine
end

section
/-! Terms and slices (R36 to R40, R89): what a grant or a renewal fixes, and what several slices come to. -/

namespace Sys2Proof.Machine

section
variable (c : ResourceConfig)

/-- A slice carries one tick more when, with its trim, sixteen sixteenths have gathered (R89). -/
theorem nextSlice_eq (acc : Fin 16) : nextSlice c acc
    = (acc + c.sliceTrim, c.sliceTicks.setWidth 32 + BitVec.ofNat 32 ((acc.val + c.sliceTrim.val) / 16)) := by
  have h1 := acc.isLt
  have h2 := c.sliceTrim.isLt
  unfold nextSlice
  split
  · rw [show (acc.val + c.sliceTrim.val) / 16 = 1 by omega]
    rfl
  · rw [show (acc.val + c.sliceTrim.val) / 16 = 0 by omega]
    simp

/-- The accumulator and the length of `n` consecutive slices from an accumulator on. -/
def slices (acc : Fin 16) (n : Nat) : Fin 16 × Tick :=
  (List.range n).foldl (fun (x : Fin 16 × Tick) _ => ((nextSlice c x.1).1, x.2 + (nextSlice c x.1).2)) (acc, 0)

theorem slices_succ (acc : Fin 16) (n : Nat) : slices c acc (n + 1)
    = ((nextSlice c (slices c acc n).1).1, (slices c acc n).2 + (nextSlice c (slices c acc n).1).2) := by
  simp only [slices, List.range_succ, List.foldl_append, List.foldl_cons, List.foldl_nil]

/-- The sixteenths that `n` slices gather are either left in the accumulator or spent, sixteen for a tick. -/
theorem slices_eq (acc : Fin 16) (n : Nat) : (slices c acc n).1.val = (acc.val + n * c.sliceTrim.val) % 16 ∧
    (slices c acc n).2 = BitVec.ofNat 32 (n * c.sliceTicks.toNat + (acc.val + n * c.sliceTrim.val) / 16) := by
  induction n with
  | zero =>
    have := acc.isLt
    refine ⟨by simp [slices]; omega, ?_⟩
    rw [show (acc.val + 0 * c.sliceTrim.val) / 16 = 0 by omega]
    simp [slices]
  | succ n ih =>
    obtain ⟨gathered, spent⟩ := ih
    have trim : (n + 1) * c.sliceTrim.val = n * c.sliceTrim.val + c.sliceTrim.val := Nat.succ_mul _ _
    have ticks : (n + 1) * c.sliceTicks.toNat = n * c.sliceTicks.toNat + c.sliceTicks.toNat := Nat.succ_mul _ _
    rw [slices_succ, nextSlice_eq, trim, ticks]
    refine ⟨?_, ?_⟩
    · rw [Fin.val_add, gathered]
      omega
    · apply BitVec.eq_of_toNat_eq
      have := c.sliceTicks.isLt
      simp only [spent, gathered, BitVec.toNat_add, BitVec.toNat_ofNat, BitVec.toNat_setWidth]
      omega

/-- Sixteen slices bring the accumulator back and spend the trim once for each sixteenth of it (R89). -/
theorem slices_sixteen (acc : Fin 16) :
    slices c acc 16 = (acc, 16 * c.sliceTicks.setWidth 32 + BitVec.ofNat 32 c.sliceTrim.val) := by
  obtain ⟨gathered, spent⟩ := slices_eq c acc 16
  have := acc.isLt
  refine Prod.ext (Fin.ext (by rw [gathered]; simp only; omega)) ?_
  have := c.sliceTicks.isLt
  have sixteen : (16 : Tick).toNat = 16 := rfl
  rw [spent, show (acc.val + 16 * c.sliceTrim.val) / 16 = c.sliceTrim.val by omega]
  apply BitVec.eq_of_toNat_eq
  simp only [BitVec.toNat_add, BitVec.toNat_mul, BitVec.toNat_ofNat, BitVec.toNat_setWidth, sixteen]
  omega

variable {c} (now : Tick) (term : Half)

/-- A warning is due when the lead is above 0 and below the term (R38). -/
theorem termInterval_of_warned (h : 0 < c.warnLead ∧ c.warnLead < c.resolveTerm term) : termInterval c now term
    = ⟨.warn, now + (c.resolveTerm term).setWidth 32 - c.warnLead.setWidth 32, 0,
        now + (c.resolveTerm term).setWidth 32, c.resolveTerm term⟩ := if_pos h

theorem termInterval_of_not_warned (h : ¬ (0 < c.warnLead ∧ c.warnLead < c.resolveTerm term)) :
    termInterval c now term
      = ⟨.expire, now + (c.resolveTerm term).setWidth 32, 0, now + (c.resolveTerm term).setWidth 32,
          c.resolveTerm term⟩ := if_neg h

/-- The first slice gathers the trim and lasts slice_ticks (R39). -/
theorem sliceInterval_eq : sliceInterval c now
    = ⟨.slice, now + c.sliceTicks.setWidth 32, c.sliceTrim, now + c.sliceTicks.setWidth 32, c.sliceTicks⟩ := by
  have := c.sliceTrim.isLt
  have first : nextSlice c 0 = (c.sliceTrim, c.sliceTicks.setWidth 32) := by
    rw [nextSlice, if_neg (by simp), zero_add]
  simp only [sliceInterval, first]

end

/-- Settles O14. -/
theorem termsAndSlices : Obligations.TermsAndSlices := by
  intro c now term acc
  refine ⟨fun h => by rw [grantInterval, h], termInterval_of_warned now term, termInterval_of_not_warned now term,
    fun h => by rw [grantInterval, h]; exact sliceInterval_eq now, ?_, slices_sixteen c acc⟩
  by_cases h : 16 ≤ acc.val + c.sliceTrim.val
  · rw [nextSlice, if_pos h, if_neg (by omega)]
  · rw [nextSlice, if_neg h, if_pos (by omega)]

end Sys2Proof.Machine
end

section
/-! Handles (R28, R55): what a handle of a lease or of a waiter comes to, and the requests whose handle does not fit. -/

namespace Sys2Proof.Machine

/-! ### Handles and incarnations -/

theorem handleOf_natByte {n : Nat} (hn : n ≤ 256) (inc : Byte) (i : Fin n) :
    handleOf n inc (natByte i.val) = some ⟨inc, i⟩ := by
  have := natByte_toNat (n := i.val) (by omega)
  simp [handleOf, this]

theorem handleOf_none {n : Nat} {inc slot : Byte} (h : n ≤ slot.toNat) : handleOf n inc slot = none :=
  dif_neg (by omega)

/-- A handle one incarnation behind is not of the slot's incarnation. -/
theorem incarnation_ne_of_behind {inc x : Byte} (h : inc + 1 = x) : inc ≠ x := by
  rintro rfl
  bv_omega

theorem incarnation_behind_iff {inc x : Byte} : inc = x - 1 ↔ inc + 1 = x := eq_sub_iff_add_eq

/-! ### A lease handle (R28) -/

section
variable {s : State} {i : LeaseSlot} {l : Lease} {inc : Byte}

theorem State.resolveLease_of_lease (hl : s.lease i = some l) (hi : inc = (s.leaseRecord i).incarnation) :
    s.resolveLease (some ⟨inc, i⟩) = .valid i l := by
  have hl' : (s.leaseRecord i).lease = some l := hl
  simp [State.resolveLease, hi, hl']

theorem State.resolveOwnLease_of_lease (hl : s.lease i = some l) (hi : inc = (s.leaseRecord i).incarnation)
    (c : Client) : s.resolveOwnLease c (some ⟨inc, i⟩) = if l.holder = c then .valid i l else .bad := by
  simp only [State.resolveOwnLease, State.resolveLease_of_lease hl hi]

theorem State.resolveLease_of_behind {e : EndCause} (hi : inc + 1 = (s.leaseRecord i).incarnation)
    (he : (s.leaseRecord i).prevEnd = some e) : s.resolveLease (some ⟨inc, i⟩) = .gone e := by
  simp only [State.resolveLease, if_neg (incarnation_ne_of_behind hi), if_pos (incarnation_behind_iff.2 hi), he]

theorem State.resolveOwnLease_of_behind {e : EndCause} (hi : inc + 1 = (s.leaseRecord i).incarnation)
    (he : (s.leaseRecord i).prevEnd = some e) (c : Client) : s.resolveOwnLease c (some ⟨inc, i⟩) = .gone e := by
  simp only [State.resolveOwnLease, State.resolveLease_of_behind hi he]

theorem State.resolveLease_of_neither (hl : inc = (s.leaseRecord i).incarnation → s.lease i = none)
    (he : inc + 1 = (s.leaseRecord i).incarnation → (s.leaseRecord i).prevEnd = none) :
    s.resolveLease (some ⟨inc, i⟩) = .bad := by
  have here : (if inc = (s.leaseRecord i).incarnation then (s.leaseRecord i).lease else none) = none :=
    ite_eq_right_iff.2 hl
  have behind : (if inc = (s.leaseRecord i).incarnation - 1 then (s.leaseRecord i).prevEnd else none) = none :=
    ite_eq_right_iff.2 fun h => he (incarnation_behind_iff.1 h)
  simp only [State.resolveLease, here, behind]

end

/-! ### A waiter handle (R55) -/

section
variable {s : State} {j : WaiterSlot} {w : Waiter} {inc : Byte} (c : Client)

theorem State.resolveWaiter_of_waiter (hw : s.waiter j = some w) (hi : inc = (s.waiterRecord j).incarnation) :
    s.resolveWaiter c (some ⟨inc, j⟩) = if w.client = c then .valid j w else .bad := by
  have hw' : (s.waiterRecord j).waiter = some w := hw
  simp [State.resolveWaiter, hi, hw']

theorem State.resolveWaiter_of_behind {o : Outcome} (hi : inc + 1 = (s.waiterRecord j).incarnation)
    (ho : (s.waiterRecord j).prevOutcome = some o) : s.resolveWaiter c (some ⟨inc, j⟩) = o.asRef := by
  simp only [State.resolveWaiter, if_neg (incarnation_ne_of_behind hi), if_pos (incarnation_behind_iff.2 hi), ho]

theorem State.resolveWaiter_of_neither (hw : inc = (s.waiterRecord j).incarnation → s.waiter j = none)
    (ho : inc + 1 = (s.waiterRecord j).incarnation → (s.waiterRecord j).prevOutcome = none) :
    s.resolveWaiter c (some ⟨inc, j⟩) = .bad := by
  have here : (if inc = (s.waiterRecord j).incarnation then (s.waiterRecord j).waiter else none) = none :=
    ite_eq_right_iff.2 hw
  have behind : (if inc = (s.waiterRecord j).incarnation - 1 then (s.waiterRecord j).prevOutcome else none) = none :=
    ite_eq_right_iff.2 fun h => ho (incarnation_behind_iff.1 h)
  simp only [State.resolveWaiter, here, behind]

end

/-- Settles O15. -/
theorem handlesResolve : Obligations.HandlesResolve := by
  intro s c inc slot
  refine ⟨fun h => by rw [handleOf_none h]; rfl, fun h => by rw [handleOf_none h]; rfl, ?_, ?_⟩
  · rintro i rfl
    rw [handleOf_natByte (by decide)]
    exact ⟨fun l hl hi => ⟨State.resolveLease_of_lease hl hi, State.resolveOwnLease_of_lease hl hi c⟩,
      fun e hi he => ⟨State.resolveLease_of_behind hi he, State.resolveOwnLease_of_behind hi he c⟩,
      State.resolveLease_of_neither⟩
  · rintro j rfl
    rw [handleOf_natByte (by decide)]
    have behind : ∀ o : Outcome, inc + 1 = (s.waiterRecord j).incarnation → (s.waiterRecord j).prevOutcome = some o →
        s.resolveWaiter c (some ⟨inc, j⟩) = o.asRef := fun _ => State.resolveWaiter_of_behind c
    exact ⟨fun w hw hi => State.resolveWaiter_of_waiter c hw hi, fun h => behind (.granted h),
      fun hi => ⟨behind .timedOut hi, behind .offline hi, behind .cancelled hi, behind .tornDown hi⟩,
      State.resolveWaiter_of_neither c⟩

/-! ### Requests whose handle names no lease or waiter (R28, R55, R167) -/

section
variable {s : State} {p : Client} {params : List Byte}

/-- The four requests on a lease of the client's own, where the handle names none. -/
theorem body_of_no_own_lease {k : Kind} (hk : k = .renew ∨ k = .release ∨ k = .downgrade ∨ k = .queryLease)
    {ref : LeaseRef} (h : s.resolveOwnLease p (handleAt 32 params 0) = ref) (not_valid : ∀ i l, ref ≠ .valid i l) :
    k.body p params s = (ref.refusal, s) := by
  have split : (∃ e, ref = .gone e) ∨ ref = .bad := by
    cases ref with
    | valid i l => exact absurd rfl (not_valid i l)
    | gone e => exact .inl ⟨e, rfl⟩
    | bad => exact .inr rfl
  rcases hk with rfl | rfl | rfl | rfl <;> rcases split with ⟨e, rfl⟩ | rfl <;>
    simp only [Kind.body, renewBody, releaseBody, downgradeBody, queryLeaseBody, h]

theorem revokeBody_of_no_lease {ref : LeaseRef} (h : s.resolveLease (handleAt 32 params 0) = ref)
    (not_valid : ∀ i l, ref ≠ .valid i l) : revokeBody params s = (ref.refusal, s) := by
  cases ref with
  | valid i l => exact absurd rfl (not_valid i l)
  | gone e => simp only [revokeBody, h]
  | bad => simp only [revokeBody, h]

/-- What CANCEL answers to a handle that names no waiter of the client's (R69, R70). -/
def WaiterRef.refusal : WaiterRef → Reply
  | .granted lease => ⟨.alreadyGranted, lease.bytes⟩
  | .ended code => ⟨.badHandle, [code]⟩
  | _ => .plain .badHandle

theorem cancelBody_of_no_waiter {ref : WaiterRef} (h : s.resolveWaiter p (handleAt 24 params 0) = ref)
    (not_valid : ∀ j w, ref ≠ .valid j w) : cancelBody p params s = (ref.refusal, s) := by
  cases ref with
  | valid j w => exact absurd rfl (not_valid j w)
  | granted lease => simp only [cancelBody, h, WaiterRef.refusal]
  | ended code => simp only [cancelBody, h, WaiterRef.refusal]
  | bad => simp only [cancelBody, h, WaiterRef.refusal, refuse]

/-! ### Requests whose lease does not fit them (R43, R49, R85) -/

section
variable {i : LeaseSlot} {l : Lease} (h : s.resolveOwnLease p (handleAt 32 params 0) = .valid i l)
include h

theorem renewBody_of_sliced (hp : (s.resource l.resource).config.policy = .sliced) :
    renewBody p params s = refuse .notPermitted s := by
  simp only [renewBody, h, hp, if_true]

theorem renewBody_of_recalling (hp : (s.resource l.resource).config.policy = .term) (ha : l.state ≠ .active) :
    renewBody p params s = refuse .tooLate s := by
  simp [renewBody, h, hp, ha]

theorem renewBody_of_long (hp : (s.resource l.resource).config.policy = .term) (ha : l.state = .active)
    (ht : (s.resource l.resource).config.maxTerm < halfAt params 2) : renewBody p params s = refuse .badParam s := by
  have long : (s.resource l.resource).config.maxTerm.toNat < (halfAt params 2).toNat := ht
  simp [renewBody, h, hp, ha, long]

theorem downgradeBody_of_recalling (ha : l.state ≠ .active) : downgradeBody p params s = refuse .tooLate s := by
  simp only [downgradeBody, h, if_pos ha]

theorem downgradeBody_of_shared (ha : l.state = .active) (hm : l.mode = .shared) :
    downgradeBody p params s = refuse .wrongState s := by
  simp [downgradeBody, h, ha, hm]

theorem downgradeBody_of_exclusiveOnly (ha : l.state = .active) (hm : l.mode = .exclusive)
    (hx : (s.resource l.resource).config.sharing = .exclusiveOnly) :
    downgradeBody p params s = refuse .notPermitted s := by
  simp [downgradeBody, h, ha, hm, hx]

end

/-- REVOKE with its grace of a lease that is RECALLING already. -/
theorem revokeBody_of_recalling_again {i : LeaseSlot} {l : Lease}
    (h : s.resolveLease (handleAt 32 params 0) = .valid i l) (hb : byteAt params 2 = 0x00) (ha : l.state ≠ .active) :
    revokeBody params s = refuse .alreadyRecalling s := by
  have with_grace : yesNoOfByte (byteAt params 2) = some false := by rw [hb]; rfl
  simp [revokeBody, h, with_grace, ha]

end

/-- Settles O16. -/
theorem handleRequestsRefused : Obligations.HandleRequestsRefused := by
  intro k p q s hs
  refine ⟨fun hk => ⟨fun e h => hs.refuses (body_of_no_own_lease (s := s.beginEvent) hk h (by simp)),
      fun h => hs.refuses (body_of_no_own_lease (s := s.beginEvent) hk h (by simp))⟩, ?_, ?_,
    fun i l => ⟨?_, ?_, ?_⟩⟩
  · rintro rfl
    exact ⟨fun e h => hs.refuses (revokeBody_of_no_lease (s := s.beginEvent) h (by simp)),
      fun h => hs.refuses (revokeBody_of_no_lease (s := s.beginEvent) h (by simp))⟩
  · rintro rfl
    exact ⟨fun lease h => hs.refuses (cancelBody_of_no_waiter (s := s.beginEvent) h (by simp)),
      fun code h => hs.refuses (cancelBody_of_no_waiter (s := s.beginEvent) h (by simp)),
      fun h => hs.refuses (cancelBody_of_no_waiter (s := s.beginEvent) h (by simp))⟩
  · rintro rfl h
    exact ⟨fun hp => hs.refuses (renewBody_of_sliced (s := s.beginEvent) h hp),
      fun hp ha => hs.refuses (renewBody_of_recalling (s := s.beginEvent) h hp ha),
      fun hp ha ht => hs.refuses (renewBody_of_long (s := s.beginEvent) h hp ha ht)⟩
  · rintro rfl h
    exact ⟨fun ha => hs.refuses (downgradeBody_of_recalling (s := s.beginEvent) h ha),
      fun ha hm => hs.refuses (downgradeBody_of_shared (s := s.beginEvent) h ha hm),
      fun ha hm hx => hs.refuses (downgradeBody_of_exclusiveOnly (s := s.beginEvent) h ha hm hx)⟩
  · rintro rfl h hb ha
    exact hs.refuses (revokeBody_of_recalling_again (s := s.beginEvent) h hb ha)

end Sys2Proof.Machine
end

section
/-! ACQUIRE: the checks in their order (R31 to R34, R58), and the grant at once (R35, R40). -/

namespace Sys2Proof.Machine

section
variable {s : State} {c : Client} {a : AcquireParams}

/-! ### The checks, said of the records (R30, R32) -/

theorem State.duplicate_iff {r : ResourceId} : s.duplicate r c = true ↔
    (s.resource r).holders[c] ≠ none ∨ ∃ j ∈ (s.resource r).queue, ∃ w ∈ s.waiter j, w.client = c := by
  rw [State.duplicate, Bool.or_eq_true, State.waitingSlot_isSome, Option.isSome_iff_ne_none]

theorem State.immediateAllowed_iff : s.immediateAllowed a = true ↔
    (s.resource a.resource).queue = [] ∧ (s.resource a.resource).fenceMark = false ∧
      ((s.resource a.resource).state = .idle ∨ ((s.resource a.resource).state = .held ∧ a.mode = .shared ∧
        (s.resource a.resource).holderCount < (s.resource a.resource).config.maxShared ∧
        ∀ c : Client, ∀ i ∈ (s.resource a.resource).holders[c], ∀ l ∈ s.lease i, l.mode = .shared)) := by
  rw [← State.allShared_iff]
  simp only [State.immediateAllowed, State.hasRoom, Bool.and_eq_true, Bool.or_eq_true, List.isEmpty_iff,
    Bool.not_eq_eq_eq_not, Bool.not_true, decide_eq_true_eq]
  tauto

/-- A resource that may be granted at once is HELD after the grant (R8). -/
theorem State.held_of_immediateAllowed (h : s.immediateAllowed a = true) :
    (if (s.resource a.resource).state = .idle then .held else (s.resource a.resource).state) = ResourceState.held := by
  obtain ⟨-, -, idle | ⟨held, -⟩⟩ := State.immediateAllowed_iff.1 h
  · rw [if_pos idle]
  · rw [held]
    rfl

/-! ### Admission (R31) -/

/-- The second check: the mode or the term does not fit the resource's configuration. -/
def ResourceConfig.rejects (x : ResourceConfig) (a : AcquireParams) : Prop :=
  (a.mode = .shared ∧ x.sharing = .exclusiveOnly) ∨ (x.policy = .term ∧ x.maxTerm < a.term)

theorem State.admission_of_rejects (h : (s.resource a.resource).config.rejects a) :
    s.admission c a = some .badParam := by
  unfold State.admission
  rcases h with h | h
  · exact if_pos h
  · exact ite_eq_left_iff.2 fun _ => if_pos h

variable (h1 : ¬ (s.resource a.resource).config.rejects a)
include h1

/-- The checks behind the second. -/
theorem State.admission_eq : s.admission c a =
    if (s.resource a.resource).config.allowed.getLsbD c.val = false then some .notAllowed
    else if (s.resource a.resource).state = .offline ∨ (s.resource a.resource).state = .draining then some .offline
    else if s.duplicate a.resource c = true then some .duplicate
    else none := by
  obtain ⟨mode, term⟩ := not_or.1 h1
  exact (if_neg mode).trans (if_neg term)

theorem State.admission_of_not_allowed (h2 : (s.resource a.resource).config.allowed.getLsbD c.val = false) :
    s.admission c a = some .notAllowed := by
  rw [State.admission_eq h1, if_pos h2]

theorem State.admission_of_offline (h2 : ¬ (s.resource a.resource).config.allowed.getLsbD c.val = false)
    (h3 : (s.resource a.resource).state = .offline ∨ (s.resource a.resource).state = .draining) :
    s.admission c a = some .offline := by
  rw [State.admission_eq h1, if_neg h2, if_pos h3]

theorem State.admission_of_duplicate (h2 : ¬ (s.resource a.resource).config.allowed.getLsbD c.val = false)
    (h3 : ¬ ((s.resource a.resource).state = .offline ∨ (s.resource a.resource).state = .draining))
    (h4 : s.duplicate a.resource c = true) : s.admission c a = some .duplicate := by
  rw [State.admission_eq h1, if_neg h2, if_neg h3, if_pos h4]

theorem State.admission_passes (h2 : ¬ (s.resource a.resource).config.allowed.getLsbD c.val = false)
    (h3 : ¬ ((s.resource a.resource).state = .offline ∨ (s.resource a.resource).state = .draining))
    (h4 : ¬ s.duplicate a.resource c = true) : s.admission c a = none := by
  rw [State.admission_eq h1, if_neg h2, if_neg h3, if_neg h4]

end

/-! ### What is decided on an admitted request (R32 to R34, R58) -/

section
variable {s : State} {c : Client} {a : AcquireParams}

theorem State.admitted_of_tableFull (hi : s.immediateAllowed a = true) (hf : s.freeLeaseSlot = none)
    (hw : a.waitLimit = 0) : s.admitted c a = refuse .tableFull s := by
  simp only [State.admitted, if_pos hi, hf, if_pos hw]

theorem State.admitted_of_noticeFull {i : LeaseSlot} (hi : s.immediateAllowed a = true) (hf : s.freeLeaseSlot = some i)
    (hn : 16 ≤ (s.box c).used) : s.admitted c a = refuse .noticeSpace s := by
  have full : ¬ (s.box c).used < Config.noticeEntries := Nat.not_lt.2 hn
  simp only [State.admitted, if_pos hi, hf, if_neg full]

theorem State.admitted_of_grant {i : LeaseSlot} (hi : s.immediateAllowed a = true) (hf : s.freeLeaseSlot = some i)
    (hn : (s.box c).used < 16) : s.admitted c a = s.grantNow c a i := by
  have room : (s.box c).used < Config.noticeEntries := hn
  simp only [State.admitted, if_pos hi, hf, if_pos room]

theorem State.admitted_of_busy (hi : ¬ s.immediateAllowed a = true) (hw : a.waitLimit = 0) :
    s.admitted c a = refuse (s.resource a.resource).busyStatus s := by
  simp only [State.admitted, if_neg hi, if_pos hw]

/-- A request that cannot be granted at once and will wait takes the queued path; by way of R33 it comes for want of a
lease slot. -/
theorem State.admitted_of_queued (hf : s.immediateAllowed a = true → s.freeLeaseSlot = none) (hw : a.waitLimit ≠ 0) :
    s.admitted c a = s.queuedPath c a (s.immediateAllowed a) := by
  cases hi : s.immediateAllowed a with
  | true => simp only [State.admitted, hi, if_true, hf hi, if_neg hw]
  | false => simp only [State.admitted, hi, Bool.false_eq_true, if_false, if_neg hw]

variable {viaFullTable : Bool}

theorem State.queuedPath_of_poolFull (hf : s.freeWaiterSlot = none) :
    s.queuedPath c a viaFullTable = refuse .poolFull s := by
  simp only [State.queuedPath, hf]

theorem State.queuedPath_of_noticeFull {j : WaiterSlot} (hf : s.freeWaiterSlot = some j) (hn : 14 < (s.box c).used) :
    s.queuedPath c a viaFullTable = refuse .noticeSpace s := by
  simp only [State.queuedPath, hf, if_pos hn]

/-! ### The body of ACQUIRE -/

variable {params : List Byte} (ha : acquireParams params = some a)
include ha

theorem acquireBody_of_not_admitted {status : Status} (h : s.admission c a = some status) :
    acquireBody c params s = refuse status s := by
  simp only [acquireBody, ha, h]

theorem acquireBody_of_admitted (h : s.admission c a = none) : acquireBody c params s = s.admitted c a := by
  simp only [acquireBody, ha, h]

end

/-- Settles O12: the checks in their order, each refusing before the next is looked at. -/
theorem acquireRefusals : Obligations.AcquireRefusals := by
  intro p q s a hs ha x immediate full noWaiterSlot duplicate refused badParam notAllowed offline admitted
  have immediate_iff : s.immediateAllowed a = true ↔ immediate := State.immediateAllowed_iff
  have full_iff : s.freeLeaseSlot = none ↔ full := State.freeLeaseSlot_none
  have noWaiterSlot_iff : s.freeWaiterSlot = none ↔ noWaiterSlot := State.freeWaiterSlot_none
  have duplicate_iff : s.duplicate a.resource p = true ↔ duplicate := State.duplicate_iff
  have refuses : ∀ status, acquireBody p q.params s.beginEvent = refuse status s.beginEvent → refused status :=
    fun _ hb => hs.refuses (k := .acquire) hb
  have not_admitted : ∀ status, s.admission p a = some status → refused status :=
    fun status h => refuses status (acquireBody_of_not_admitted (s := s.beginEvent) ha h)
  have of_admitted : ∀ status, admitted → s.beginEvent.admitted p a = refuse status s.beginEvent → refused status := by
    rintro status ⟨h1, h2, h3, h4⟩ h
    have passes : s.admission p a = none := State.admission_passes h1 h2 h3 (mt duplicate_iff.1 h4)
    exact refuses status ((acquireBody_of_admitted (s := s.beginEvent) ha passes).trans h)
  have queued : admitted → (immediate → full) → a.waitLimit ≠ 0 → ∀ status,
      s.beginEvent.queuedPath p a (s.immediateAllowed a) = refuse status s.beginEvent → refused status := by
    intro h hf hw status h'
    refine of_admitted status h ((State.admitted_of_queued (s := s.beginEvent) (fun hi => ?_) hw).trans h')
    exact full_iff.2 (hf (immediate_iff.1 hi))
  refine ⟨fun h1 => not_admitted _ (State.admission_of_rejects h1),
    fun h1 h2 => not_admitted _ (State.admission_of_not_allowed h1 h2),
    fun h1 h2 h3 => not_admitted _ (State.admission_of_offline h1 h2 h3),
    fun h1 h2 h3 h4 => not_admitted _ (State.admission_of_duplicate h1 h2 h3 (duplicate_iff.2 h4)),
    fun h hi hf hw => of_admitted _ h
      (State.admitted_of_tableFull (s := s.beginEvent) (immediate_iff.2 hi) (full_iff.2 hf) hw),
    fun h hi hf hn => ?_,
    fun h hi hw => of_admitted _ h (State.admitted_of_busy (s := s.beginEvent) (mt immediate_iff.1 hi) hw),
    fun h hf hw hp => queued h hf hw _ (State.queuedPath_of_poolFull (s := s.beginEvent) (noWaiterSlot_iff.2 hp)),
    fun h hf hw hp hn => ?_⟩
  · obtain ⟨i, free⟩ := Option.ne_none_iff_exists'.1 (mt full_iff.1 hf)
    exact of_admitted _ h (State.admitted_of_noticeFull (s := s.beginEvent) (immediate_iff.2 hi) free hn)
  · obtain ⟨j, free⟩ := Option.ne_none_iff_exists'.1 (mt noWaiterSlot_iff.1 hp)
    exact queued h hf hw _ (State.queuedPath_of_noticeFull (s := s.beginEvent) free hn)

/-! ### The grant at once (R35, R40) -/

/-- The state that a grant at once leaves: one notice entry reserved and the lease begun. -/
def State.grantedNow (s : State) (c : Client) (a : AcquireParams) (i : LeaseSlot) : State :=
  (s.setBox c ((s.box c).reserve 1)).beginLease i a.resource c a.mode a.urgency
    (grantInterval (s.resource a.resource).config s.now a.term)

theorem State.grantNow_eq (s : State) (c : Client) (a : AcquireParams) (i : LeaseSlot) :
    let iv := grantInterval (s.resource a.resource).config s.now a.term
    s.grantNow c a i = (⟨.ok, (s.leaseHandle i).bytes ++ [a.mode.code] ++ tickBytes iv.ends ++ halfBytes iv.length⟩,
      s.grantedNow c a i) := rfl

/-- The beginning of a lease gives its slot exactly the lease's entry (R26). -/
theorem State.beginLease_entriesOf (s : State) (i : LeaseSlot) (r : ResourceId) (c : Client) (m : Mode) (u : Urgency)
    (iv : Interval) : (s.beginLease i r c m u iv).entriesOf (.lease i)
      = [s.leaseEntry i ⟨r, c, m, u, .active, iv.phase, iv.deadline, iv.trim⟩] :=
  s.rearmed_entriesOf i ⟨r, c, m, u, .active, iv.phase, iv.deadline, iv.trim⟩

/-- Settles O11. -/
theorem acquireGrantsAtOnce : Obligations.AcquireGrantsAtOnce := by
  intro p q s a i hs ha admission allowed free room iv l
  have hb : Kind.body p .acquire q.params s.beginEvent
      = (⟨.ok, (s.leaseHandle i).bytes ++ [a.mode.code] ++ tickBytes iv.ends ++ halfBytes iv.length⟩,
          s.beginEvent.grantedNow p a i) :=
    (acquireBody_of_admitted (s := s.beginEvent) ha admission).trans
      (State.admitted_of_grant (s := s.beginEvent) allowed free room)
  have inner : s.Inner (s.beginEvent.grantedNow p a i)
      { resources := [a.resource], leases := [i], sessions := [p], boxes := [p], owners := [.lease i] } []
      [⟨a.resource, p⟩] :=
    ((State.Inner.start s _).setBox (by simp) _).beginLease (by simp) (by simp) (by simp) (by simp) _ _ _
  refine ⟨_, hs.exec_body hb, inner.served _, ?_, ?_, ?_, ?_, ?_, ?_⟩
  · exact (State.beginLease_leaseRecord _ i a.resource p a.mode a.urgency iv i).trans (if_pos rfl)
  · rw [← State.held_of_immediateAllowed allowed]
    exact (State.beginLease_resource _ i a.resource p a.mode a.urgency iv _).trans (if_pos rfl)
  · exact (State.beginLease_session _ i a.resource p a.mode a.urgency iv p).trans (if_pos rfl)
  · exact State.setBox_box_self s.beginEvent p _
  · exact State.beginLease_entriesOf _ i a.resource p a.mode a.urgency iv
  · rw [State.answer_line, State.endEvent_line]
    simp [State.grantedNow]

end Sys2Proof.Machine
end

section
/-! RENEW and DOWNGRADE of a lease, and the WARN and SLICE expiries after which a lease goes on (R41, R44, R50, R90, R134). -/

namespace Sys2Proof.Machine

section
variable {s : State} {p : Client} {params : List Byte} {i : LeaseSlot} {l : Lease}

/-! ### RENEW (R44) -/

/-- The lease with a new term: its phase and its deadline (R38, R44). -/
def Lease.renewed (l : Lease) (iv : Interval) : Lease := { l with phase := iv.phase, deadline := iv.deadline }

theorem renewBody_of_active (h : s.resolveOwnLease p (handleAt 32 params 0) = .valid i l)
    (hp : (s.resource l.resource).config.policy = .term) (ha : l.state = .active)
    (ht : halfAt params 2 ≤ (s.resource l.resource).config.maxTerm) :
    let iv := termInterval (s.resource l.resource).config s.now (halfAt params 2)
    renewBody p params s = (⟨.ok, tickBytes iv.ends ++ halfBytes iv.length⟩, s.rearmed i (l.renewed iv)) := by
  have fits : ¬ (s.resource l.resource).config.maxTerm.toNat < (halfAt params 2).toNat := Nat.not_lt.2 ht
  have not_sliced : ¬ (s.resource l.resource).config.policy = .sliced := by simp [hp]
  simp only [renewBody, h, if_neg not_sliced, if_neg (not_not.2 ha), if_neg fits]
  rfl

end

/-- Settles O17. -/
theorem renewFixesNewTerm : Obligations.RenewFixesNewTerm := by
  intro p q s i l hs h hp ha ht iv l'
  have hb : Kind.body p .renew q.params s.beginEvent
      = (⟨.ok, tickBytes iv.ends ++ halfBytes iv.length⟩, s.beginEvent.rearmed i l') :=
    renewBody_of_active (s := s.beginEvent) h hp ha ht
  have inner : s.Inner (s.beginEvent.rearmed i l') { leases := [i], owners := [.lease i] } [] [] :=
    (State.Inner.start s _).rearmed l' (by simp) (by simp)
  exact ⟨_, hs.exec_body hb, inner.served_quiet p q _, s.beginEvent.rearmed_leaseRecord i l',
    s.beginEvent.rearmed_entriesOf i l'⟩

/-! ### DOWNGRADE (R50) -/

/-- DOWNGRADE where nobody waits: the pass that follows clears the starved mark. -/
theorem downgradeBody_of_empty {s : State} {p : Client} {params : List Byte} {i : LeaseSlot} {l : Lease}
    (h : s.resolveOwnLease p (handleAt 32 params 0) = .valid i l) (ha : l.state = .active) (hm : l.mode = .exclusive)
    (hx : (s.resource l.resource).config.sharing = .sharedAllowed) (hq : (s.resource l.resource).queue = []) :
    downgradeBody p params s = (⟨.ok, [natByte (s.resource l.resource).holderCount]⟩,
      (s.setLease i { l with mode := .shared }).setResource l.resource { s.resource l.resource with starved := false }) := by
  have pass : (s.setLease i { l with mode := .shared }).run [.pass l.resource]
      = (s.setLease i { l with mode := .shared }).setResource l.resource
          { s.resource l.resource with starved := false } := State.run_pass_empty hq
  refine (downgradeBody_of_active h ha hm hx).trans ?_
  rw [pass, State.setResource_resource_self]
  rfl

/-- Settles O19. -/
theorem downgradeSharesTheLease : Obligations.DowngradeSharesTheLease := by
  intro p q s i l hs h ha hm hx hq
  have hb := downgradeBody_of_empty (s := s.beginEvent) h ha hm hx hq
  refine ⟨_, hs.exec_quiet (k := .downgrade) hb rfl, State.Inner.served_quiet ?_ p q _, ?_, by simp⟩
  · exact ((State.Inner.start s _).setLeaseRecord (by simp) _).setResource (by simp) _
  · simp [State.setLease_leaseRecord]

/-! ### A current expiry of a lease (R105) -/

theorem State.Current.phase {s : State} {e : Entry} {i : LeaseSlot} {l : Lease} (h : s.Current e)
    (ho : e.owner = .lease i) (hl : s.lease i = some l) : l.phase.purpose = e.purpose := by
  unfold State.Current at h
  rw [ho] at h
  obtain ⟨l', hl', -, phase, -⟩ := h
  cases hl.symm.trans hl'
  exact phase

section
variable {s : State} {e : Entry} {i : LeaseSlot} {l : Lease} (h : s.Current e) (ho : e.owner = .lease i)
  (hl : s.lease i = some l)
include h ho hl

/-! ### The WARN expiry (R41, R134) -/

/-- A current WARN expiry: the WARNING is posted or dropped, and the lease's entry is armed for its term end. -/
theorem warnAct_of_current :
    let ends := e.due + (s.resource l.resource).config.warnLead.setWidth 32
    let left : Half := if (s.now - ends).toNat < 2 ^ 31 then 0 else (ends - s.now).setWidth 16
    warnAct e s.expiryTaken = (s.expiryTaken.setBox l.holder
      ((s.box l.holder).warn s.now (.warning (s.leaseHandle i) l.resource left))).rearmed i
        { l with phase := .expire, deadline := ends } := by
  intro ends left
  have ticks : ((remaining s.now ends).setWidth 16 : Half) = left := by
    rw [remaining_eq]
    exact apply_ite (BitVec.setWidth 16) _ _ _
  simp only [warnAct, h.lease ho hl, ← ticks]
  rfl

/-! ### The SLICE expiry (R90) -/

/-- A current SLICE expiry with nobody waiting: the lease's entry is armed for its next slice. -/
theorem sliceAct_of_empty (hq : (s.resource l.resource).queue = []) :
    let slice := nextSlice (s.resource l.resource).config l.trim
    sliceAct e s.expiryTaken = s.expiryTaken.rearmed i { l with trim := slice.1, deadline := e.due + slice.2 } := by
  have hq' : (s.expiryTaken.resource l.resource).queue = [] := hq
  simp only [sliceAct, h.lease ho hl, if_pos hq']
  rfl

end

theorem NoticeBox.warn_of_room {b : NoticeBox} (h : b.used < 16) (tick : Tick) (body : NoticeBody) :
    b.warn tick body = b.append tick body := if_pos h

theorem NoticeBox.warn_of_full {b : NoticeBox} (h : 16 ≤ b.used) (tick : Tick) (body : NoticeBody) :
    b.warn tick body = { b with warnLost := true } := if_neg (Nat.not_lt.2 h)

/-- Settles O28. -/
theorem warnAndSliceExpiriesGoOn : Obligations.WarnAndSliceExpiriesGoOn := by
  intro s e i l howed ho h hl
  refine ⟨fun hp => ?_, fun hp hq => ?_⟩
  · refine ⟨_, exec_expiry (k := .warn) howed hp (warnAct_of_current h ho hl), ?_, ?_, ?_, fun room => ?_, fun full => ?_⟩
    · refine State.Inner.taken_quiet (m := { leases := [i], boxes := [l.holder], owners := [.lease i] }) ?_ rfl rfl
      exact ((State.Inner.startExpiry s rfl).setBox (by simp) _).rearmed _ (by simp) (by simp)
    · exact State.rearmed_leaseRecord _ i _
    · exact State.rearmed_entriesOf _ i _
    · rw [State.endEvent_box, State.rearmed_box, State.setBox_box_self, NoticeBox.warn_of_room room]
    · rw [State.endEvent_box, State.rearmed_box, State.setBox_box_self, NoticeBox.warn_of_full full]
  · have purpose : l.phase.purpose = .slice := (h.phase ho hl).trans hp
    refine ⟨_, exec_expiry (k := .slice) howed hp (sliceAct_of_empty h ho hl hq), ?_, ?_, ?_⟩
    · refine State.Inner.taken_quiet (m := { leases := [i], owners := [.lease i] }) ?_ rfl rfl
      exact (State.Inner.startExpiry s rfl).rearmed _ (by simp) (by simp)
    · exact State.rearmed_leaseRecord _ i _
    · rw [← purpose]
      exact State.rearmed_entriesOf _ i _

end Sys2Proof.Machine
end

section
/-! Recalls as the whole work of an event (R42, R74, R75, R91): with a grace above 0, and with grace 0, which cuts. -/

namespace Sys2Proof.Machine

section
variable {s u : State} {i : LeaseSlot} {l : Lease} {reason : RecallReason} {grace : Byte}

/-! ### A grace above 0 (R74) -/

/-- The lease as a recall at `now` leaves it (R74). -/
def Lease.recalled (l : Lease) (reason : RecallReason) (now : Tick) (grace : Byte) : Lease :=
  { l with state := .recalling reason, phase := .grace, deadline := now + grace.setWidth 32 }

/-- The lease in slot `i` has been recalled: its RECALL notice is posted and its entry armed for the grace. -/
def State.recalled (s : State) (i : LeaseSlot) (l : Lease) (reason : RecallReason) (grace : Byte) : State :=
  (s.post l.holder (s.recallNotice i l reason grace)).rearmed i (l.recalled reason s.now grace)

theorem State.run_recall (hl : s.lease i = some l) (ha : l.state = .active) (hg : grace ≠ 0) :
    s.run [.recallLease i reason grace] = s.recalled i l reason grace :=
  (State.run_single (doWork_recall_work hg s i reason)).trans (congrArg Prod.fst (doWork_recall hl ha hg))

theorem State.leaseRecalled (s : State) (i : LeaseSlot) (l : Lease) (reason : RecallReason) (grace : Byte) :
    s.LeaseRecalled (s.recalled i l reason grace) i l reason grace where
  slot := State.rearmed_leaseRecord _ i _
  box := by rw [State.recalled, State.rearmed_box, State.post_box, if_pos rfl]
  entry := State.rearmed_entriesOf _ i _

/-- All that a recall with a grace above 0 reaches. -/
theorem State.Inner.recalled {owed : Bool} (h : s.Inner u { l.recallTouches i with owed := owed } [] [])
    (reason : RecallReason) (grace : Byte) :
    s.Inner (u.recalled i l reason grace) { l.recallTouches i with owed := owed } [] [] :=
  (h.setBox (by simp [Lease.recallTouches]) _).rearmed _ (by simp [Lease.recallTouches]) (by simp [Lease.recallTouches])

/-! ### Grace 0 (R75) -/

/-- The lease in slot `i` has been recalled with grace 0, and the forced cut is to come. -/
def State.recalledToCut (s : State) (i : LeaseSlot) (l : Lease) (reason : RecallReason) : State :=
  (s.post l.holder (s.recallNotice i l reason 0)).setLease i { l with state := .recalling reason }

theorem State.run_recall_cut (hl : s.lease i = some l) (ha : l.state = .active) :
    s.run [.recallLease i reason 0] = (s.recalledToCut i l reason).run [.endLease i .forced] := by
  rw [State.run_item, doWork_recall_cut hl ha]
  rfl

/-- Where the end of the lease sets off nothing beyond itself, so does the forced cut. -/
theorem State.EndsAlone.recalledToCut (h : s.EndsAlone i l) (reason : RecallReason) :
    (s.recalledToCut i l reason).EndsAlone i { l with state := .recalling reason } :=
  ⟨State.setLease_lease_self _ i _, h.stands, h.state, h.queue, h.starved⟩

/-- What the recall and the cut leave: the RECALL notice took the lease's reservation, so none is returned (R27, R75). -/
theorem State.EndsAlone.leaseCut (h : s.EndsAlone i l) (ha : l.state = .active) (reason : RecallReason) :
    s.LeaseEnded (s.run [.recallLease i reason 0]) i l .forced
      ((s.box l.holder).post s.now (s.recallNotice i l reason 0)) := by
  obtain ⟨slot, resource, session, box, leaseEntry, settleEntry⟩ := (h.recalledToCut reason).leaseEnded .forced
  rw [← State.run_recall_cut h.lease ha] at slot resource session box leaseEntry settleEntry
  refine ⟨?_, resource, session, ?_, leaseEntry, settleEntry⟩
  · rw [slot, State.recalledToCut, State.setLease_incarnation]
    rfl
  · rw [box, if_neg (by simp), State.recalledToCut, State.setLease_box, State.post_box, if_pos rfl]

/-- All that the recall and the cut reach, the line being cut. -/
theorem State.Inner.recallCut {owed : Bool} (h : s.Inner u { l.endTouches i with owed := owed } [] [])
    (he : u.EndsAlone i l) (ha : l.state = .active) (reason : RecallReason) :
    s.Inner (u.run [.recallLease i reason 0]) { l.endTouches i with owed := owed } [⟨l.resource, l.holder⟩] [] ∧
      (u.run [.recallLease i reason 0]).deadlines.owed = u.deadlines.owed := by
  have toCut : s.Inner (u.recalledToCut i l reason) { l.endTouches i with owed := owed } [] [] :=
    (h.setBox (by simp [Lease.endTouches]) _).setLeaseRecord (by simp [Lease.endTouches]) _
  rw [State.run_recall_cut he.lease ha]
  exact State.Inner.endLease (l := { l with state := .recalling reason }) toCut (he.recalledToCut reason) .forced

/-! ### The expiries that recall (R42, R91) -/

variable {e : Entry} (h : s.Current e) (ho : e.owner = .lease i) (hl : s.lease i = some l)
include h ho hl

theorem expireAct_of_current : expireAct e s.expiryTaken
    = s.expiryTaken.run [.recallLease i .expired (s.resource l.resource).config.grace] := by
  simp only [expireAct, h.lease ho hl]
  rfl

theorem sliceAct_of_waiters (hq : (s.resource l.resource).queue ≠ []) : sliceAct e s.expiryTaken
    = s.expiryTaken.run [.recallLease i .sliceEnd (s.resource l.resource).config.grace] := by
  have hq' : (s.expiryTaken.resource l.resource).queue ≠ [] := hq
  simp only [sliceAct, h.lease ho hl, if_neg hq']
  rfl

end

/-- An expiry whose whole effect is a recall with a grace above 0. -/
theorem exec_expiry_recalls {s : State} {e : Entry} {k : Purpose} {i : LeaseSlot} {l : Lease} {reason : RecallReason}
    {grace : Byte} (howed : s.deadlines.owed = some e) (hp : e.purpose = k) (hl : s.lease i = some l)
    (ha : l.state = .active) (hg : grace ≠ 0)
    (act : k.act e s.expiryTaken = s.expiryTaken.run [.recallLease i reason grace]) :
    ∃ t, exec k.command s = .next t.deliver ∧ s.Taken t (l.recallTouches i) [] ∧
      s.LeaseRecalled t i l reason grace := by
  have run : s.expiryTaken.run [.recallLease i reason grace] = s.expiryTaken.recalled i l reason grace :=
    State.run_recall hl ha hg
  obtain ⟨slot, box, entry⟩ := s.expiryTaken.leaseRecalled i l reason grace
  refine ⟨_, exec_expiry howed hp (act.trans run), ?_, slot, box, entry⟩
  refine State.Inner.taken_quiet (m := l.recallTouches i) ?_ rfl rfl
  exact (State.Inner.startExpiry s rfl).recalled reason grace

/-- Settles O29. -/
theorem expiriesRecall : Obligations.ExpiriesRecall := by
  intro s e i l howed ho h hl ha
  refine ⟨fun hp hg => ?_, fun hp hg alone => ?_, fun hp hq hg => ?_⟩
  · exact exec_expiry_recalls (k := .expire) howed hp hl ha hg (expireAct_of_current h ho hl)
  · have act := expireAct_of_current h ho hl
    rw [hg] at act
    obtain ⟨inner, owed⟩ := (State.Inner.startExpiry s (m := { l.endTouches i with owed := true }) rfl).recallCut
      alone.expiryTaken ha .expired
    obtain ⟨h1, h2, h3, h4, h5, h6⟩ := alone.expiryTaken.leaseCut ha .expired
    exact ⟨_, exec_expiry (k := .expire) howed hp act, inner.taken rfl owed, h1, h2, h3, h4, h5, h6⟩
  · exact exec_expiry_recalls (k := .slice) howed hp hl ha hg (sliceAct_of_waiters h ho hl hq)

end Sys2Proof.Machine
end

section
/-!
CANCEL and the WAIT expiry (R56, R67, R69): the end of a waiter that lets no other waiter move to the head, with the check
and the pass of a queue that it leaves empty.
-/

namespace Sys2Proof.Machine

/-! ### Checks that recall nobody (R81) -/

/-- Without a head, or on a resource that is not preemptible, the check recalls nobody. -/
theorem doWork_check_nobody {s : State} {r : ResourceId}
    (h : (s.resource r).queue = [] ∨ (s.resource r).config.preemptible = false) : doWork (.check r) s = (s, []) := by
  have nobody : s.preempted r = [] := by
    unfold State.preempted
    rcases h with h | h
    · simp [h]
    · simp only [h]
      split <;> rfl
  simp [doWork, State.preemptionCheck, nobody]

theorem State.run_check_nobody {s : State} {r : ResourceId}
    (h : (s.resource r).queue = [] ∨ (s.resource r).config.preemptible = false) : s.run [.check r] = s := by
  rw [State.run_single (by rw [doWork_check_nobody h]), doWork_check_nobody h]

/-- The check and the pass that follow when a head has left its queue empty (R56, R64). -/
theorem State.run_check_pass_empty {s : State} {r : ResourceId} (h : (s.resource r).queue = []) :
    s.run [.check r, .pass r] = s.setResource r { s.resource r with starved := false } :=
  calc s.run [.check r, .pass r]
      = (s.run [.check r]).run [.pass r] := s.run_append (first := [.check r]) (next := [.pass r]) (by simp)
    _ = s.run [.pass r] := by rw [State.run_check_nobody (.inl h)]
    _ = _ := State.run_pass_empty h

/-! ### The end of a waiter, said whole (R56, R64) -/

/-- The waiter in slot `j` has ended, its client's notice state being `b`; where it stood alone, the pass that followed has
cleared the starved mark. -/
def State.departed (s : State) (j : WaiterSlot) (w : Waiter) (o : Outcome) (b : NoticeBox) : State :=
  let t := (s.setBox w.client b).freeWaiter j o
  t.setResource w.resource { t.resource w.resource with
    starved := (s.resource w.resource).starved && !decide ((s.resource w.resource).queue = [j]) }

section
variable {s u : State} {j : WaiterSlot} {w : Waiter}

/-- What the end of such a waiter sets off clears the starved mark of a queue left empty, and else nothing. -/
theorem State.LeavesQuietly.run (h : s.LeavesQuietly j w) (o : Outcome) (b : NoticeBox) :
    ((s.setBox w.client b).freeWaiter j o).run
      (if (s.resource w.resource).queue.head? = some j then [.check w.resource, .pass w.resource] else [])
      = s.departed j w o b := by
  have left : ((s.setBox w.client b).freeWaiter j o).resource w.resource = { s.resource w.resource with
      queue := (s.resource w.resource).queue.filter fun k => !decide (k = j) } :=
    (State.freeWaiter_resource (s.setBox w.client b) j o h.waiter w.resource).trans (if_pos rfl)
  rcases h.place with alone | ⟨-, behind⟩
  · have empty : (((s.setBox w.client b).freeWaiter j o).resource w.resource).queue = [] := by simp [left, alone]
    rw [if_pos (by simp [alone]), State.run_check_pass_empty empty]
    simp [State.departed, alone]
  · have not_alone : (s.resource w.resource).queue ≠ [j] := fun e => behind (by rw [e]; rfl)
    rw [if_neg behind, State.run_nil]
    simp only [State.departed, not_alone, decide_false, Bool.not_false, Bool.and_true]
    refine (State.setResource_resource_eq _ w.resource).symm.trans (congrArg _ ?_)
    rw [left]

/-- What it leaves. -/
theorem State.waiterEnded (hw : s.waiter j = some w) (o : Outcome) (b : NoticeBox) :
    s.WaiterEnded (s.departed j w o b) j w o b := by
  obtain ⟨slot, resource, session, box, entry⟩ := State.waiterLeft hw o b
  refine ⟨slot, ?_, session, box, entry⟩
  simp [State.departed, resource]

/-- All that it reaches. -/
theorem State.Inner.departed {owed : Bool} (h : s.Inner u { w.endTouches j with owed := owed } [] [])
    (hw : u.waiter j = some w) (o : Outcome) (b : NoticeBox) :
    s.Inner (u.departed j w o b) { w.endTouches j with owed := owed } [] [] :=
  (h.waiterEnds hw o b).setResource (by simp [Waiter.endTouches]) _

theorem State.departed_owed (hw : s.waiter j = some w) (o : Outcome) (b : NoticeBox) :
    (s.departed j w o b).deadlines.owed = s.deadlines.owed :=
  State.freeWaiter_owed (s := s.setBox w.client b) hw o

end

/-- Settles O20: both events end the waiter, and what that sets off is `State.LeavesQuietly.run`. -/
theorem waitersEnd : Obligations.WaitersEnd := by
  intro s j w quiet
  refine ⟨fun p q hs hv => ?_, fun e howed ho h => ?_⟩
  · obtain ⟨hw, rfl⟩ := State.resolveWaiter_valid hv
    have quiet' : s.beginEvent.LeavesQuietly j w := ⟨quiet.waiter, quiet.place⟩
    have body := (cancelBody_of_valid (s := s.beginEvent) hv).trans
      (congrArg (Prod.mk _) (quiet'.run .cancelled ((s.box w.client).giveBack 2)))
    have inner := (State.Inner.start s (w.endTouches j)).departed hw .cancelled ((s.box w.client).giveBack 2)
    obtain ⟨slot, resource, session, box, entry⟩ :=
      State.waiterEnded (s := s.beginEvent) hw .cancelled ((s.box w.client).giveBack 2)
    exact ⟨_, hs.exec_body (k := .cancel) body, inner.served_quiet w.client q _, slot, resource, session, box, entry⟩
  · have quiet' : s.expiryTaken.LeavesQuietly j w := ⟨quiet.waiter, quiet.place⟩
    let ended := (s.box w.client).waitsEnded s.now [s.waitEndedNotice j w .timedOut]
    have act := (waitAct_of_current ho quiet.waiter h).trans (quiet'.run .timedOut ended)
    have inner := (State.Inner.startExpiry s (m := { w.endTouches j with owed := true }) rfl).departed
      quiet.waiter .timedOut ended
    have owed := State.departed_owed (s := s.expiryTaken) quiet.waiter .timedOut ended
    obtain ⟨slot, resource, session, box, entry⟩ :=
      State.waiterEnded (s := s.expiryTaken) quiet.waiter .timedOut ended
    exact ⟨_, exec_expiry (k := .wait) howed (h.waiter ho quiet.waiter).1 act, inner.taken_quiet rfl owed, slot, resource,
      session, box, entry⟩

end Sys2Proof.Machine
end

section
/-! ACQUIRE that waits (R57 to R60): the place of the new waiter, what its joining leaves, and the check at the head. -/

namespace Sys2Proof.Machine

/-! ### The place of a new waiter (R57) -/

section
variable {s : State} {r : ResourceId}

/-- In a queue ordered by urgency, whoever stands behind one less urgent than `u` is less urgent too. -/
theorem State.QueueOrder.sorted (h : s.QueueOrder) (hq : s.QueuesAgree) (r : ResourceId) (u : Urgency) :
    (s.resource r).queue.Pairwise fun a b => s.lessUrgent u a = true → s.lessUrgent u b = true := by
  refine (h r).imp_of_mem fun {a b} _ hb hab less => ?_
  obtain ⟨v, hv, -⟩ := ((hq r).2 b).1 hb
  obtain ⟨v', hv', lt⟩ := State.lessUrgent_iff.1 less
  exact State.lessUrgent_iff.2 ⟨v, hv, lt_of_le_of_lt (hab v' hv' v hv) lt⟩

/-- Of the waiters in a queue, those not less urgent than `u` are as urgent or more. -/
theorem State.QueuesAgree.filter_not_lessUrgent (hq : s.QueuesAgree) (r : ResourceId) (u : Urgency) :
    ((s.resource r).queue.filter fun k => !s.lessUrgent u k)
      = (s.resource r).queue.filter fun k => (s.waiter k).any fun w => decide (u ≤ w.urgency) := by
  refine List.filter_congr fun k hk => ?_
  obtain ⟨v, hv, -⟩ := ((hq r).2 k).1 hk
  have hv : s.waiter k = some v := hv
  simp only [State.lessUrgent, hv, Option.any_some, ← decide_not, not_lt]

/-- How many stand ahead of a new waiter of urgency `u`. -/
theorem State.QueueOrder.enqueuePosition_eq (h : s.QueueOrder) (hq : s.QueuesAgree) (r : ResourceId) (u : Urgency) :
    s.enqueuePosition (s.resource r).queue u
      = ((s.resource r).queue.filter fun k => (s.waiter k).any fun w => decide (u ≤ w.urgency)).length := by
  obtain ⟨split, count⟩ := takeWhile_reverse_of_sorted _ _ (h.sorted hq r u)
  have length := congrArg List.length split
  rw [List.length_append, hq.filter_not_lessUrgent] at length
  change (s.resource r).queue.length - ((s.resource r).queue.reverse.takeWhile (s.lessUrgent u)).length = _
  omega

/-- A new waiter stands behind all that are as urgent, ahead of all that are less. -/
theorem State.QueueOrder.insertIdx_eq (h : s.QueueOrder) (hq : s.QueuesAgree) (r : ResourceId) (u : Urgency)
    (j : WaiterSlot) : (s.resource r).queue.insertIdx (s.enqueuePosition (s.resource r).queue u) j
      = ((s.resource r).queue.filter fun k => (s.waiter k).any fun w => decide (u ≤ w.urgency)) ++ [j]
        ++ (s.resource r).queue.filter fun k => (s.waiter k).any fun w => decide (w.urgency < u) := by
  rw [State.insertIdx_enqueuePosition j (h.sorted hq r u), hq.filter_not_lessUrgent, List.append_assoc]
  rfl

/-- A free slot stands in no queue (R54). -/
theorem State.QueuesAgree.free_not_mem (hq : s.QueuesAgree) {j : WaiterSlot} (hj : s.waiter j = none) (r : ResourceId) :
    j ∉ (s.resource r).queue := by
  intro member
  obtain ⟨w, hw, -⟩ := ((hq r).2 j).1 member
  rw [hj] at hw
  cases hw

end

/-! ### What the joining leaves (R59) -/

section
variable {s u : State} {m : Touched} {cuts sets : List Line} {c : Client} {a : AcquireParams} {j : WaiterSlot}

/-- A new waiter: all that it reaches. -/
theorem State.Inner.enqueue (h : s.Inner u m cuts sets) {w : Waiter} (hj : j ∈ m.waiters) (hb : w.client ∈ m.boxes)
    (ho : .waiter j ∈ m.owners) (hr : w.resource ∈ m.resources) (hc : w.client ∈ m.sessions) :
    s.Inner (u.enqueue j w) m cuts sets :=
  ⟨((((h.frame.setWaiterRecord hj _).setBox hb _).arm ho).setResource hr _).setSession hc _, h.now, h.gate⟩

/-- An ACQUIRE that joins the queue: all that it reaches. -/
theorem State.Inner.queued (h : s.Inner u m cuts sets) (hj : j ∈ m.waiters) (hb : c ∈ m.boxes)
    (ho : .waiter j ∈ m.owners) (hr : a.resource ∈ m.resources) (hc : c ∈ m.sessions) (full : Bool) :
    s.Inner (u.queued c a j full) m cuts sets := by
  have joined : s.Inner (u.enqueue j (a.waiter c u.now)) m cuts sets := h.enqueue hj hb ho hr hc
  cases full with
  | false => exact joined
  | true => exact joined.setResource hr _

/-- The starved mark is in the resource's record alone. -/
theorem State.queued_eq (s : State) (c : Client) (a : AcquireParams) (j : WaiterSlot) (full : Bool) :
    ∃ x, s.queued c a j full = (s.enqueue j (a.waiter c s.now)).setResource a.resource x := by
  cases full with
  | false => exact ⟨_, (State.setResource_resource_eq _ _).symm⟩
  | true => exact ⟨_, rfl⟩

theorem State.queued_waiterRecord (s : State) (c : Client) (a : AcquireParams) (j : WaiterSlot) (full : Bool) :
    (s.queued c a j full).waiterRecord j = { s.waiterRecord j with waiter := some (a.waiter c s.now) } := by
  obtain ⟨x, e⟩ := s.queued_eq c a j full
  simp [e, State.enqueue]

theorem State.queued_session (s : State) (c : Client) (a : AcquireParams) (j : WaiterSlot) (full : Bool) :
    (s.queued c a j full).session c = (s.session c).gainWaiter := by
  obtain ⟨x, e⟩ := s.queued_eq c a j full
  rw [e, State.setResource_session, State.enqueue_session]
  exact if_pos rfl

theorem State.queued_box (s : State) (c : Client) (a : AcquireParams) (j : WaiterSlot) (full : Bool) :
    (s.queued c a j full).box c = (s.box c).reserve 2 := by
  obtain ⟨x, e⟩ := s.queued_eq c a j full
  simp [e, State.enqueue, AcquireParams.waiter]

theorem State.queued_entriesOf (s : State) (c : Client) (a : AcquireParams) (j : WaiterSlot) (full : Bool) :
    (s.queued c a j full).entriesOf (.waiter j)
      = [⟨.waiter j, some (s.waiterRecord j).incarnation, .wait, s.now + a.waitLimit.setWidth 32⟩] := by
  obtain ⟨x, e⟩ := s.queued_eq c a j full
  have incarnation : ((s.setWaiterRecord j { s.waiterRecord j with waiter := some (a.waiter c s.now) }).waiterRecord
      j).incarnation = (s.waiterRecord j).incarnation := by simp
  rw [e, ← incarnation]
  exact State.entriesOf_arm_self _ ⟨.waiter j, _, .wait, s.now + a.waitLimit.setWidth 32⟩

/-! ### The queued path -/

/-- With a waiter slot and two entries free, the request joins the queue, and at its head the check follows (R60). -/
theorem State.queuedPath_of_room (hf : s.freeWaiterSlot = some j) (hn : (s.box c).used ≤ 14) (full : Bool) :
    let position := s.enqueuePosition (s.resource a.resource).queue a.urgency
    s.queuedPath c a full = (⟨.queued, (s.waiterHandle j).bytes ++ [natByte position]⟩,
      if position = 0 then (s.queued c a j full).run [.check a.resource] else s.queued c a j full) := by
  simp only [State.queuedPath, hf, if_neg (Nat.not_lt.2 hn)]
  rfl

end

/-- Settles O13. -/
theorem acquireQueues : Obligations.AcquireQueues := by
  intro p q s a j hs ha admission full waits free room agree order x ahead behind results touched enqueued
  let u := s.beginEvent.queued p a j (s.immediateAllowed a)
  have resource : u.resource a.resource
      = { x with queue := ahead ++ [j] ++ behind, starved := x.starved || s.immediateAllowed a } := by
    rw [← order.insertIdx_eq agree a.resource a.urgency j]
    exact (State.queued_resource s.beginEvent p a j _ (agree.free_not_mem (State.freeWaiterSlot_free free) _) _).trans
      (if_pos rfl)
  have inner : s.Inner u touched [] [] := by
    refine (State.Inner.start s touched).queued ?_ ?_ ?_ ?_ ?_ _ <;> simp [touched]
  have joined : enqueued u := ⟨s.beginEvent.queued_waiterRecord p a j _, resource, s.beginEvent.queued_session p a j _,
    s.beginEvent.queued_box p a j _, s.beginEvent.queued_entriesOf p a j _⟩
  have body : Kind.body p .acquire q.params s.beginEvent
      = (⟨.queued, results⟩, if ahead = [] then u.run [.check a.resource] else u) := by
    have path := State.queuedPath_of_room (s := s.beginEvent) (a := a) free room (s.immediateAllowed a)
    refine ((acquireBody_of_admitted (s := s.beginEvent) ha admission).trans
      (State.admitted_of_queued (s := s.beginEvent) full waits)).trans (path.trans ?_)
    have position : s.beginEvent.enqueuePosition (s.beginEvent.resource a.resource).queue a.urgency = ahead.length :=
      order.enqueuePosition_eq agree a.resource a.urgency
    simp only [position, List.length_eq_zero_iff]
    rfl
  refine ⟨fun quiet => ?_, fun head => ⟨u, inner, joined, ?_⟩⟩
  · have unchanged : (if ahead = [] then u.run [.check a.resource] else u) = u := by
      split
      · rename_i head
        have fixed : (u.resource a.resource).config.preemptible = false := by
          rw [resource]
          exact quiet.resolve_left (not_not.2 head)
        exact State.run_check_nobody (.inr fixed)
      · rfl
    rw [unchanged] at body
    exact ⟨_, hs.exec_body body, inner.served_quiet p q _, joined⟩
  · rw [if_pos head] at body
    exact hs.exec_body body

end Sys2Proof.Machine
end

section
/-!
The grant pass (R62 to R64): one waiter granted, said whole, and the walk over a queue, which grants a run of waiters from
the head.
-/

namespace Sys2Proof.Machine

/-! ### What the walk asks of the records (R62) -/

section
variable {s : State} {r : ResourceId} {m : Mode} {i : LeaseSlot}

theorem State.admits_iff : (s.compatible r m && s.hasRoom r) = true ↔ s.Admits r m := by
  cases m with
  | exclusive =>
    simp only [State.compatible, State.hasRoom, Bool.and_eq_true, decide_eq_true_eq, Resource.holderCount_eq_zero,
      State.Admits, Resource.holders_get, forall_const, reduceCtorEq, IsEmpty.forall_iff, true_and]
  | shared =>
    simp only [State.compatible, State.hasRoom, Bool.and_eq_true, decide_eq_true_eq, State.allShared_iff,
      State.Admits, forall_const, reduceCtorEq, IsEmpty.forall_iff, true_and]

/-- No slot below the one taken is free (R25). -/
theorem State.freeLeaseSlot_lowest (h : s.freeLeaseSlot = some i) : ∀ k : LeaseSlot, k < i → s.lease k ≠ none := by
  intro k lt free
  obtain ⟨-, before, after, split, taken⟩ := List.find?_eq_some_iff_append.1 h
  have ascends : (before ++ i :: after).Pairwise (· < ·) := split ▸ List.pairwise_lt_finRange 32
  have member : k ∈ before ++ i :: after := split ▸ mem_leaseSlots k
  rcases List.mem_append.1 member with hk | hk
  · have := taken k hk
    simp [free] at this
  · rcases List.mem_cons.1 hk with rfl | hk
    · exact lt_irrefl k lt
    · exact lt_asymm lt ((List.pairwise_cons.1 (List.pairwise_append.1 ascends).2.1).1 k hk)

theorem Resource.grantable_iff {x : Resource} :
    x.grantable = true ↔ (x.state = .idle ∨ x.state = .held) ∧ x.fenceMark = false := by
  simp [Resource.grantable]

end

/-! ### One waiter granted (R63) -/

section
variable {s u : State} {m : Touched} {j : WaiterSlot} {w : Waiter}

/-- A grant: the notice, the lease, the end of the waiter. -/
theorem State.grantWaiter_eq (s : State) (j : WaiterSlot) (w : Waiter) (i : LeaseSlot) :
    let iv := grantInterval (s.resource w.resource).config s.now w.term
    s.grantWaiter j w i
      = ((s.post w.client (.granted (s.waiterHandle j) (s.leaseHandle i) w.resource w.mode iv.ends)).beginLease i
          w.resource w.client w.mode w.urgency iv).freeWaiter j (.granted (s.leaseHandle i)) := rfl

/-- The beginning of a lease reaches its slot, its resource, its entry and its client. -/
theorem State.Within.beginLease (h : s.Within u m) {i : LeaseSlot} {r : ResourceId} {c : Client} (hi : i ∈ m.leases)
    (hr : r ∈ m.resources) (hc : c ∈ m.sessions) (ho : .lease i ∈ m.owners) (mode : Mode) (urgency : Urgency)
    (iv : Interval) : s.Within (u.beginLease i r c mode urgency iv) m :=
  (((Frame.setLeaseRecord h hi _).arm ho).setResource hr _).setSession hc _

/-- What the end of a waiter leaves as it was, beside its own slot, resource, entry and client's counts. -/
theorem State.freeWaiter_within (hw : s.waiter j = some w) (o : Outcome) : s.Within (s.freeWaiter j o)
    { resources := [w.resource], waiters := [j], sessions := [w.client], owners := [.waiter j] } :=
  State.Within.freeWaiter (State.Frame.refl s rfl) hw (by simp) (by simp) (by simp) (by simp) o

theorem State.freeWaiter_entriesOf_self (hw : s.waiter j = some w) (o : Outcome) :
    (s.freeWaiter j o).entriesOf (.waiter j) = [] := by
  rw [State.freeWaiter_eq o hw]
  exact State.entriesOf_disarm_self (s.setResource w.resource _) (.waiter j)

/-- A grant does all of R63 and nothing else. -/
theorem State.granted (hw : s.waiter j = some w) (i : LeaseSlot) : s.Granted (s.grantWaiter j w i) j w i := by
  let iv := grantInterval (s.resource w.resource).config s.now w.term
  let posted := s.post w.client (.granted (s.waiterHandle j) (s.leaseHandle i) w.resource w.mode iv.ends)
  let begun := posted.beginLease i w.resource w.client w.mode w.urgency iv
  have waits : begun.waiter j = some w := hw
  have freed := State.freeWaiter_within waits (.granted (s.leaseHandle i))
  exact
  { lease := (s.grantWaiter_leaseRecord j w i i).trans (if_pos rfl)
    leaseEntry := (State.Frame.entriesOf freed (by simp)).trans
      (posted.beginLease_entriesOf i w.resource w.client w.mode w.urgency iv)
    resource := (State.grantWaiter_resource i hw w.resource).trans (if_pos rfl)
    box := (freed.boxes w.client (by simp)).trans (by
      show posted.box w.client = _
      rw [State.post_box, if_pos rfl])
    gate := State.freeWaiter_gate begun j _
    slot := (State.grantWaiter_waiterRecord i j hw).trans (if_pos rfl)
    waiterEntry := State.freeWaiter_entriesOf_self waits _
    session := by
      rw [State.grantWaiter_eq, State.freeWaiter_session begun j _ waits, if_pos rfl,
        State.beginLease_session posted, if_pos rfl]
      rfl
    frame := by
      refine State.Within.freeWaiter (u := begun) ?_ waits (by simp) (by simp) (by simp) (by simp) _
      refine State.Within.beginLease (u := posted) ?_ (by simp) (by simp) (by simp) (by simp) w.mode w.urgency iv
      exact State.Frame.setBox (State.Frame.refl s rfl) (by simp) _ }

theorem State.QueuesAgree.beginLease (h : s.QueuesAgree) (i : LeaseSlot) (r : ResourceId) (c : Client) (mode : Mode)
    (urgency : Urgency) (iv : Interval) : (s.beginLease i r c mode urgency iv).QueuesAgree := by
  intro k
  have queue : ((s.beginLease i r c mode urgency iv).resource k).queue = (s.resource k).queue := by
    rw [State.beginLease_resource]
    split
    · subst k; rfl
    · rfl
  rw [queue]
  exact h k

/-- The queues and the pool still agree when a waiter has been granted. -/
theorem State.QueuesAgree.grantWaiter (h : s.QueuesAgree) (j : WaiterSlot) (w : Waiter) (i : LeaseSlot) :
    (s.grantWaiter j w i).QueuesAgree := by
  have posted : ∀ body, (s.post w.client body).QueuesAgree := fun _ => h
  exact ((posted _).beginLease i w.resource w.client w.mode w.urgency _).freeWaiter j _

end

/-! ### The walk over a queue (R62, R64) -/

/-- What a walk that began in `s` with `n` grants came to: the waiters `granted` have been granted from the head of
resource `r`'s queue, those of `rest` are left, and the walk says why it stopped there. -/
structure State.WalkTakes (s : State) (r : ResourceId) (n : Nat) (walk : Walk) (granted rest : List WaiterSlot) : Prop where
  run : State.GrantRun r granted s walk.state
  left : (walk.state.resource r).queue = rest
  grants : walk.grants = n + granted.length
  not_starved : rest = [] → walk.starved = false
  stops : ∀ j ∈ rest.head?, ∀ w ∈ s.waiter j,
    ¬ (walk.state.Admits r w.mode ∧ ∃ i : LeaseSlot, walk.state.lease i = none) ∧
    (walk.starved = true ↔ walk.state.Admits r w.mode ∧ ∀ i : LeaseSlot, walk.state.lease i ≠ none)

section
variable {s : State} {r : ResourceId} {queue : List WaiterSlot} {j : WaiterSlot} {w : Waiter}

/-- A walk that stops at the first waiter it looks at, starved exactly where only a slot was wanting. -/
theorem State.walkTakes_stop (hq : (s.resource r).queue = j :: queue) (hw : s.waiter j = some w) (n : Nat)
    {starved : Bool} (not_both : ¬ (s.Admits r w.mode ∧ ∃ i : LeaseSlot, s.lease i = none))
    (hs : starved = true ↔ s.Admits r w.mode ∧ ∀ i : LeaseSlot, s.lease i ≠ none) :
    s.WalkTakes r n ⟨s, n, starved⟩ [] (j :: queue) where
  run := rfl
  left := hq
  grants := rfl
  not_starved := nofun
  stops := by
    intro k hk v hv
    cases hk
    cases hw.symm.trans hv
    exact ⟨not_both, hs⟩

/-- A walk that grants the head and goes on from there. -/
theorem State.WalkTakes.cons {n : Nat} {walk : Walk} {granted rest : List WaiterSlot} {i : LeaseSlot}
    (hq : (s.resource r).queue = j :: (granted ++ rest)) (hw : s.waiter j = some w) (nodup : j ∉ granted ++ rest)
    (admits : s.Admits r w.mode) (free : s.freeLeaseSlot = some i)
    (h : (s.grantWaiter j w i).WalkTakes r (n + 1) walk granted rest) :
    s.WalkTakes r n walk (j :: granted) rest where
  run := ⟨w, i, _, by rw [hq]; rfl, hw, admits, State.freeLeaseSlot_free free, State.freeLeaseSlot_lowest free,
    State.granted hw i, h.run⟩
  left := h.left
  grants := by rw [h.grants, List.length_cons]; omega
  not_starved := h.not_starved
  stops := by
    intro k hk v hv
    have other : k ≠ j := by
      rintro rfl
      exact nodup (List.mem_append_right _ (List.mem_of_mem_head? hk))
    refine h.stops k hk v ?_
    rw [State.waiter, State.grantWaiter_waiterRecord i k hw, if_neg other]
    exact hv

/-- The walk over the queue of a resource that can grant takes a run from its head. -/
theorem State.walkQueue_takes (r : ResourceId) (queue : List WaiterSlot) : ∀ (s : State) (n : Nat), s.QueuesAgree →
    (s.resource r).state = .idle ∨ (s.resource r).state = .held → (s.resource r).queue = queue →
    ∃ granted rest, queue = granted ++ rest ∧ s.WalkTakes r n (walkQueue r queue s n) granted rest := by
  induction queue with
  | nil => exact fun s n _ _ hq => ⟨[], [], rfl, rfl, hq, rfl, fun _ => rfl, nofun⟩
  | cons j queue ih =>
    intro s n agree state hq
    obtain ⟨nodup, members⟩ := agree r
    rw [hq] at nodup
    obtain ⟨w, hw, rfl⟩ := (members j).1 (by rw [hq]; exact List.mem_cons_self)
    have hw : s.waiter j = some w := hw
    by_cases admits : s.Admits w.resource w.mode
    · cases free : s.freeLeaseSlot with
      | none =>
        have full := State.freeLeaseSlot_none.1 free
        refine ⟨[], j :: queue, rfl, ?_⟩
        simp only [walkQueue, hw, State.admits_iff.2 admits, if_true, free]
        exact State.walkTakes_stop hq hw n (fun ⟨_, i, hi⟩ => full i hi) (iff_of_true rfl ⟨admits, full⟩)
      | some i =>
        obtain ⟨held, tail⟩ := State.Governed.grantWaiter_head i agree hw hq state
        obtain ⟨granted, rest, rfl, takes⟩ := ih _ (n + 1) (agree.grantWaiter j w i) (.inr held) tail
        refine ⟨j :: granted, rest, rfl, ?_⟩
        simp only [walkQueue, hw, State.admits_iff.2 admits, if_true, free]
        exact takes.cons hq hw (List.nodup_cons.1 nodup).1 admits free
    · refine ⟨[], j :: queue, rfl, ?_⟩
      simp only [walkQueue, hw, mt State.admits_iff.1 admits, Bool.false_eq_true, if_false]
      exact State.walkTakes_stop hq hw n (fun h => admits h.1) (iff_of_false nofun fun h => admits h.1)

end

/-- The pass says of its walk whether it was starved, and sets the check off where it granted and left a head. -/
theorem State.WalkTakes.doWork_pass {s : State} {r : ResourceId} {granted rest : List WaiterSlot}
    (h : s.WalkTakes r 0 (s.passWalk r) granted rest) : doWork (.pass r) s
      = ((s.passWalk r).state.setResource r { (s.passWalk r).state.resource r with starved := (s.passWalk r).starved },
          if granted ≠ [] ∧ rest ≠ [] then [.check r] else []) := by
  have some_granted : 0 < (s.passWalk r).grants ↔ granted ≠ [] := by
    rw [h.grants, Nat.zero_add, List.length_pos_iff]
  simp only [doWork, State.grantPass, some_granted, h.left]

/-- Settles O25: by `State.walkQueue_takes` where the resource can grant, and by an empty walk elsewhere. -/
theorem grantPassTakesAPrefix : Obligations.GrantPassTakesAPrefix := by
  intro s r agree x canGrant
  by_cases grants : canGrant
  · have walk : s.passWalk r = walkQueue r x.queue s 0 := if_pos (Resource.grantable_iff.2 grants)
    obtain ⟨granted, rest, split, takes⟩ := State.walkQueue_takes r x.queue s 0 agree grants.1 rfl
    rw [← walk] at takes
    exact ⟨granted, rest, _, _, split, takes.run, takes.left, takes.doWork_pass, fun h => absurd grants h,
      takes.not_starved, fun _ => takes.stops⟩
  · have walk : s.passWalk r = ⟨s, 0, false⟩ := if_neg (mt Resource.grantable_iff.1 grants)
    refine ⟨[], x.queue, s, false, rfl, rfl, rfl, ?_, fun _ => ⟨rfl, rfl⟩, fun _ => rfl, fun h => absurd h grants⟩
    simp [doWork, State.grantPass, walk]

end Sys2Proof.Machine
end

section
/-!
The recall of one lease (R74 to R76), REVOKE, which recalls or cuts (R85), and the leases that the preemption check
selects (R81, R82).
-/

namespace Sys2Proof.Machine

/-! ### The recall of one lease (R74 to R76) -/

/-- A lease that is not ACTIVE is not recalled again (R76). -/
theorem doWork_recall_again {s : State} {i : LeaseSlot} {l : Lease} (hl : s.lease i = some l) (ha : l.state ≠ .active)
    (reason : RecallReason) (grace : Byte) : doWork (.recallLease i reason grace) s = (s, []) := by
  simp only [doWork, State.recallLease, hl, if_neg ha]

/-- Settles O22. -/
theorem recallStep : Obligations.RecallStep := by
  intro s i l reason grace hl
  refine ⟨fun ha hg => ?_, fun ha hg => ?_, fun ha => doWork_recall_again hl ha reason grace⟩
  · have outcome : doWork (.recallLease i reason grace) s = (s.recalled i l reason grace, []) := doWork_recall hl ha hg
    rw [outcome]
    refine ⟨rfl, s.leaseRecalled i l reason grace, ?_⟩
    exact (((State.Frame.refl s rfl).setBox (by simp [Lease.recallTouches]) _).setLeaseRecord
      (by simp [Lease.recallTouches]) _).arm (by simp [Lease.recallTouches])
  · subst hg
    have outcome : doWork (.recallLease i reason 0) s = (s.recalledToCut i l reason, [.endLease i .forced]) :=
      doWork_recall_cut hl ha
    rw [outcome]
    refine ⟨rfl, State.setLease_lease_self _ i _, ?_,
      ((State.Frame.refl s rfl).setBox (by simp) _).setLeaseRecord (by simp) _⟩
    rw [State.recalledToCut, State.setLease_box, State.post_box, if_pos rfl]

/-! ### REVOKE (R85) -/

section
variable {s : State} {params : List Byte} {i : LeaseSlot} {l : Lease}
  (h : s.resolveLease (handleAt 32 params 0) = .valid i l) (ha : l.state = .active)
include h ha

/-- REVOKE of an ACTIVE lease with immediate no, where the resource gives a grace: a recall. -/
theorem revokeBody_of_grace (hb : byteAt params 2 = yesNo false) (hg : (s.resource l.resource).config.grace ≠ 0) :
    revokeBody params s
      = (⟨.ok, 0x01 :: tickBytes (s.now + (s.resource l.resource).config.grace.setWidth 32)⟩,
          s.recalled i l .revoked (s.resource l.resource).config.grace) := by
  refine (revokeBody_of_active h hb ha).trans ?_
  rw [if_neg Bool.false_ne_true, if_neg hg, State.run_recall (State.resolveLease_valid h) ha hg]

/-- REVOKE of an ACTIVE lease at once, or where the resource gives no grace: the cut. -/
theorem revokeBody_of_cut {immediate : Bool} (hb : byteAt params 2 = yesNo immediate)
    (hg : immediate = true ∨ (s.resource l.resource).config.grace = 0) :
    revokeBody params s = (⟨.ok, 0x02 :: tickBytes 0⟩, s.run [.recallLease i .revoked 0]) := by
  have cut : (if immediate = true then 0 else (s.resource l.resource).config.grace) = 0 := by
    rcases hg with hg | hg <;> simp [hg]
  refine (revokeBody_of_active h hb ha).trans ?_
  rw [cut, if_pos rfl]

end

section
variable {s u : State} {i : LeaseSlot} {l : Lease}

/-- What an event has made of a recalled lease stands when it has ended and its request is answered. -/
theorem State.LeaseRecalled.answered {reason : RecallReason} {grace : Byte}
    (h : s.beginEvent.LeaseRecalled u i l reason grace) (p : Client) (q : Request) (a : Reply) :
    s.LeaseRecalled (u.endEvent.answer p q a) i l reason grace := ⟨h.slot, h.box, h.entry⟩

/-- What an event has made of an ended lease stands when it has ended and its request is answered. -/
theorem State.LeaseEnded.answered {cause : EndCause} {box : NoticeBox} (h : s.beginEvent.LeaseEnded u i l cause box)
    (p : Client) (q : Request) (a : Reply) : s.LeaseEnded (u.endEvent.answer p q a) i l cause box :=
  ⟨h.slot, h.resource, h.session, h.box, h.leaseEntry, h.settleEntry⟩

end

/-- Settles O21. -/
theorem revokeRecallsOrCuts : Obligations.RevokeRecallsOrCuts := by
  intro p q s i l immediate hs hv hb grace
  refine ⟨fun ha hi hg => ?_, fun ha hi alone => ?_, fun ha hi alone => ?_⟩
  · subst hi
    have inner := (State.Inner.start s (l.recallTouches i)).recalled (owed := false) (l := l) (i := i) .revoked grace
    exact ⟨_, hs.exec_body (k := .revoke) (revokeBody_of_grace (s := s.beginEvent) hv ha hb hg), inner.served _,
      (s.beginEvent.leaseRecalled i l .revoked grace).answered p q _⟩
  · have inner := (State.Inner.start s (l.endTouches i)).recallCut (owed := false) alone.begin ha .revoked
    exact ⟨_, hs.exec_body (k := .revoke) (revokeBody_of_cut (s := s.beginEvent) hv ha hb hi), inner.1.served _,
      (alone.begin.leaseCut ha .revoked).answered p q _⟩
  · subst hi
    have inner := (State.Inner.start s (l.endTouches i)).endLease (owed := false) alone.begin .forced
    have ended := alone.begin.leaseEnded .forced
    rw [if_neg ha] at ended
    exact ⟨_, hs.exec_body (k := .revoke) (revokeBody_of_recalling (s := s.beginEvent) hv hb ha), inner.1.served _,
      ended.answered p q _⟩

/-! ### The preemption check (R81, R82) -/

theorem Lease.preemptedBy_iff {l : Lease} {m : Mode} {u : Urgency} : l.preemptedBy m u = true ↔
    l.state = .active ∧ l.urgency < u ∧ (m = .exclusive ∨ l.mode = .exclusive) := by
  simp [Lease.preemptedBy, and_assoc]

section
variable {s : State} {r : ResourceId} {j : WaiterSlot} {w : Waiter}

/-- With a head on a preemptible resource the check selects among the ACTIVE leases. -/
theorem State.preempted_eq (hq : (s.resource r).queue.head? = some j) (hw : s.waiter j = some w)
    (hp : (s.resource r).config.preemptible = true) :
    s.preempted r = (s.activeHolders r).filter fun i => (s.lease i).any fun l => l.preemptedBy w.mode w.urgency := by
  simp only [State.preempted, hq, Option.bind_some, hw, hp, if_true, State.activeHolders, List.filter_filter]
  refine List.filter_congr fun i _ => ?_
  cases hl : s.lease i with
  | none => rfl
  | some l => simpa [Lease.preemptedBy] using fun ha _ _ => ha

/-- The leases the check selects, on a preemptible resource. -/
theorem State.mem_preempted (h : s.HoldersAgree) (hq : (s.resource r).queue.head? = some j) (hw : s.waiter j = some w)
    (hp : (s.resource r).config.preemptible = true) {i : LeaseSlot} :
    i ∈ s.preempted r ↔ ∃ l ∈ s.lease i, l.resource = r ∧ l.state = .active ∧ l.urgency < w.urgency ∧
      (w.mode = .exclusive ∨ l.mode = .exclusive) := by
  rw [State.preempted_eq hq hw hp, List.mem_filter, State.mem_activeHolders h, Option.any_eq_true]
  constructor
  · rintro ⟨⟨l, hl, hr, -⟩, l', hl', hpre⟩
    cases (Option.mem_def.1 hl).symm.trans hl'
    exact ⟨l, hl, hr, Lease.preemptedBy_iff.1 hpre⟩
  · rintro ⟨l, hl, hr, hpre⟩
    exact ⟨⟨l, hl, hr, hpre.1⟩, l, hl, Lease.preemptedBy_iff.2 hpre⟩

end

/-- Settles O24: what the check selects is a part of the ACTIVE leases in their order. -/
theorem preemptionCheckSelects : Obligations.PreemptionCheckSelects := by
  intro s r j rest w hq hw agree
  have head : (s.resource r).queue.head? = some j := by rw [hq]; rfl
  cases hp : (s.resource r).config.preemptible with
  | false => exact ⟨[], doWork_check_nobody (.inr hp), fun i => by simp, List.Pairwise.nil⟩
  | true =>
    refine ⟨s.preempted r, rfl, fun i => ?_, ?_⟩
    · rw [State.mem_preempted agree head hw hp, eq_self_iff_true, true_and]
    · rw [State.preempted_eq head hw hp]
      exact (State.activeHolders_ascend agree r).filter _

end Sys2Proof.Machine
end

section
/-!
A lease that is RECALLING never returns to ACTIVE (R74, R76). Within an event its slot can be freed and granted again, so
the record is followed together with how often it was freed: every time uses up a lease or a waiter, and so the eight bits
of the incarnation do not come round to what they were (R27).
-/

namespace Sys2Proof.Machine

/-! ### How often a slot can be freed -/

/-- How often an event can still free slot `i`: once for the lease in it, once for each waiter that may be granted. -/
def State.claims (s : State) (i : LeaseSlot) : Nat := s.allWaiters + if (s.lease i).isSome then 1 else 0

theorem State.claims_le (s : State) (i : LeaseSlot) : s.claims i ≤ 25 := by
  have := s.allWaiters_le
  unfold State.claims
  split <;> omega

theorem State.claims_of_lease {s : State} {i : LeaseSlot} {l : Lease} (h : s.lease i = some l) :
    s.claims i = s.allWaiters + 1 := by simp [State.claims, h]

theorem State.claims_of_free {s : State} {i : LeaseSlot} (h : s.lease i = none) : s.claims i = s.allWaiters := by
  simp [State.claims, h]

theorem State.claims_mono {s t : State} {i : LeaseSlot} (hr : t.leaseRecord i = s.leaseRecord i)
    (hw : t.allWaiters ≤ s.allWaiters) : t.claims i ≤ s.claims i := by
  unfold State.claims State.lease
  rw [hr]
  omega

/-- A grant uses up its waiter. -/
theorem State.allWaiters_grantWaiter {s : State} {j : WaiterSlot} {w : Waiter} (hw : s.waiter j = some w)
    (k : LeaseSlot) : s.allWaiters = (s.grantWaiter j w k).allWaiters + 1 := by
  rw [State.grantWaiter_eq]
  refine Eq.trans ?_ (State.allWaiters_freeWaiter (w := w) ?_ _)
  · exact (State.allWaiters_congr fun _ => rfl).symm
  · exact hw

/-- Since slot `i` held the record `x`, it has been freed a number of times, too few for its incarnation to come round; if
never, it holds that record still. -/
def State.KeptOrFreed (s : State) (i : LeaseSlot) (x : LeaseRecord) : Prop :=
  ∃ freed : Nat, (s.leaseRecord i).incarnation = x.incarnation + BitVec.ofNat 8 freed ∧ freed + s.claims i ≤ 25 ∧
    (freed = 0 → s.leaseRecord i = x)

namespace State.KeptOrFreed

section
variable {s t : State} {i : LeaseSlot} {x : LeaseRecord}

theorem of_record (h : s.leaseRecord i = x) : s.KeptOrFreed i x :=
  ⟨0, by simp [h], by simpa using s.claims_le i, fun _ => h⟩

/-- With the incarnation it had, the slot holds the record it held. -/
theorem record (h : s.KeptOrFreed i x) (hi : (s.leaseRecord i).incarnation = x.incarnation) : s.leaseRecord i = x := by
  obtain ⟨freed, inc, few, kept⟩ := h
  rw [hi] at inc
  refine kept ?_
  have round := congrArg BitVec.toNat (left_eq_add.1 inc)
  have zero : (0 : Byte).toNat = 0 := rfl
  rw [BitVec.toNat_ofNat, zero] at round
  omega

/-- A step that does not free the slot, and changes its record only where it has been freed before. -/
theorem not_freed (h : s.KeptOrFreed i x) (inc : (t.leaseRecord i).incarnation = (s.leaseRecord i).incarnation)
    (claims : t.claims i ≤ s.claims i) (same : s.leaseRecord i = x → t.leaseRecord i = x) : t.KeptOrFreed i x := by
  obtain ⟨freed, hinc, few, kept⟩ := h
  exact ⟨freed, inc.trans hinc, by omega, fun h0 => same (kept h0)⟩

/-- A step that leaves the slot alone and makes no waiter. -/
theorem congr (h : s.KeptOrFreed i x) (hr : t.leaseRecord i = s.leaseRecord i) (hw : t.allWaiters ≤ s.allWaiters) :
    t.KeptOrFreed i x :=
  h.not_freed (by rw [hr]) (State.claims_mono hr hw) fun e => hr.trans e

theorem freeWaiter (h : s.KeptOrFreed i x) (j : WaiterSlot) (o : Outcome) : (s.freeWaiter j o).KeptOrFreed i x :=
  h.congr (State.freeWaiter_leaseRecord s j o i) (s.allWaiters_freeWaiter_le j o)

/-- The slot is freed: once more, for one claim less (R27). -/
theorem freeLease (h : s.KeptOrFreed i x) (k : LeaseSlot) (cause : EndCause) : (s.freeLease k cause).KeptOrFreed i x := by
  have waiters : (s.freeLease k cause).allWaiters = s.allWaiters := State.allWaiters_congr fun j => by simp
  by_cases standing : ∀ l, s.lease k = some l → s.stands k l = true
  · rwa [State.freeLease_of_standing cause standing]
  · push Not at standing
    obtain ⟨l, hl, hs⟩ := standing
    have hs : s.stands k l = false := by simpa using hs
    have freed := State.freeLease_leaseRecord cause hl hs i
    by_cases hk : i = k
    · subst hk
      rw [if_pos rfl] at freed
      have free : (s.freeLease i cause).lease i = none := by rw [State.lease, freed]
      obtain ⟨n, inc, few, -⟩ := h
      rw [State.claims_of_lease hl] at few
      refine ⟨n + 1, ?_, by rw [State.claims_of_free free]; omega, by simp⟩
      rw [freed, inc, BitVec.ofNat_add, ← BitVec.add_assoc]
      rfl
    · rw [if_neg hk] at freed
      exact h.congr freed waiters.le

/-- The end of a lease leaves its slot to be freed (R27). -/
theorem endLease (h : s.KeptOrFreed i x) (k : LeaseSlot) (cause : EndCause) :
    (s.endLeaseStep k cause).1.KeptOrFreed i x := by
  unfold State.endLeaseStep
  split
  · exact h
  · split
    · exact h.congr (State.afterLeaseLeft_leaseRecord _ _ _ i)
        (State.allWaiters_congr (State.afterLeaseLeft_waiter _ _ _)).le
    · exact h

end

/-! ### Every item of an event's work -/

section
variable {s : State} {i : LeaseSlot} {x : LeaseRecord} {l : Lease} (hx : x.lease = some l)
include hx

/-- A grant takes a free slot, so not one that holds the record still (R63). -/
theorem grantWaiter (h : s.KeptOrFreed i x) {j : WaiterSlot} {w : Waiter} {k : LeaseSlot} (hw : s.waiter j = some w)
    (hk : s.lease k = none) : (s.grantWaiter j w k).KeptOrFreed i x := by
  have waiters := State.allWaiters_grantWaiter hw k
  have granted := s.grantWaiter_leaseRecord j w k i
  by_cases hi : i = k
  · subst hi
    rw [if_pos rfl] at granted
    refine h.not_freed (by rw [granted]) ?_ fun e => ?_
    · rw [State.claims_of_free hk, State.claims_of_lease (by rw [State.lease, granted])]
      omega
    · rw [State.lease, e, hx] at hk
      cases hk
  · rw [if_neg hi] at granted
    exact h.congr granted (by omega)

/-- A lease other than the one followed is rewritten in place. -/
theorem setLease (h : s.KeptOrFreed i x) {k : LeaseSlot} {old : Lease} (hk : s.lease k = some old) (ho : old ≠ l)
    (new : Lease) : (s.setLease k new).KeptOrFreed i x := by
  have waiters : (s.setLease k new).allWaiters = s.allWaiters := rfl
  have record := s.setLease_leaseRecord k i new
  by_cases hi : i = k
  · subst hi
    refine h.not_freed (s.setLease_incarnation i i new) ?_ fun e => ?_
    · rw [State.claims_of_lease hk, State.claims_of_lease (s.setLease_lease_self i new), waiters]
    · rw [State.lease, e, hx] at hk
      exact absurd (Option.some.inj hk).symm ho
  · rw [if_neg hi] at record
    exact h.congr record waiters.le

theorem walkQueue (r : ResourceId) (queue : List WaiterSlot) (s : State) (n : Nat) (h : s.KeptOrFreed i x) :
    (walkQueue r queue s n).state.KeptOrFreed i x := by
  induction queue generalizing s n with
  | nil => exact h
  | cons j rest ih =>
    unfold Machine.walkQueue
    split
    · exact h
    · rename_i w hw
      split
      · split
        · exact h
        · exact ih _ _ (grantWaiter hx h hw (State.freeLeaseSlot_free ‹_›))
      · exact h

theorem grantPass (h : s.KeptOrFreed i x) (r : ResourceId) : (s.grantPass r).1.KeptOrFreed i x := by
  have walk : (s.passWalk r).state.KeptOrFreed i x := by
    unfold State.passWalk
    split
    · exact walkQueue hx r _ s 0 h
    · exact h
  exact walk.congr rfl le_rfl

variable (ha : l.state ≠ .active)
include ha

/-- A recall finds an ACTIVE lease, so not one that was RECALLING before (R76). -/
theorem recallLease (h : s.KeptOrFreed i x) (k : LeaseSlot) (reason : RecallReason) (grace : Byte) :
    (s.recallLease k reason grace).1.KeptOrFreed i x := by
  unfold State.recallLease
  split
  · exact h
  · rename_i old hk
    split_ifs with active hg
    · exact setLease (s := s.post old.holder _) hx h hk (by rintro rfl; exact ha active) _
    · exact setLease (s := s.post old.holder _) hx h hk (by rintro rfl; exact ha active) _
    · exact h

theorem doWork (w : Work) (s : State) (h : s.KeptOrFreed i x) : (doWork w s).1.KeptOrFreed i x := by
  cases w with
  | pass r => exact grantPass hx h r
  | check r => exact h
  | recallLease k reason grace => exact recallLease hx ha h k reason grace
  | endLease k cause => exact h.endLease k cause
  | freeSlot k cause => exact h.freeLease k cause
  | starvedFrom index => simp only [Machine.doWork]; split <;> exact h
  | endHolding r c cause => simp only [Machine.doWork]; split <;> exact h
  | removeWaiting r c o =>
    simp only [Machine.doWork, State.removeWaitingStep]
    split
    · exact h
    · split
      · exact h
      · exact freeWaiter (s := s.giveBack c 2) h _ o

theorem run (h : s.KeptOrFreed i x) (work : List Work) : (s.run work).KeptOrFreed i x :=
  s.run_keeps (fun t => t.KeptOrFreed i x) (doWork hx ha) work h

theorem endWaiter (h : s.KeptOrFreed i x) (j : WaiterSlot) (w : Waiter) (o : Outcome) :
    ((s.endWaiter j w o).1.run (s.endWaiter j w o).2).KeptOrFreed i x :=
  run hx ha (h.freeWaiter j o) _

theorem endSession (h : s.KeptOrFreed i x) (c : Client) (o : Outcome) (cause : EndCause) (e : SessionEnd) :
    (s.endSession c o cause e).1.KeptOrFreed i x := by
  have closed : ∀ u : State, u.KeptOrFreed i x → (u.closeContext c e).KeptOrFreed i x := fun _ hu => hu
  have waiters : (s.removeWaiters c o).KeptOrFreed i x := run hx ha h _
  have leases : ((s.removeWaiters c o).endLeases c cause).KeptOrFreed i x := run hx ha waiters _
  exact closed _ leases

/-! ### The requests -/

/-- ACQUIRE makes a waiter, or a lease in a free slot, and so finds the record as it was (R33, R35, R59). -/
theorem acquire (hs : s.leaseRecord i = x) (c : Client) (params : List Byte) :
    (acquireBody c params s).2.KeptOrFreed i x := by
  have queued : ∀ a full, (s.queuedPath c a full).2.KeptOrFreed i x := by
    intro a full
    unfold State.queuedPath
    split
    · exact of_record hs
    · split
      · exact of_record hs
      · rename_i j _ _
        have joined : (s.queued c a j full).KeptOrFreed i x := by
          unfold State.queued
          cases full <;> exact of_record hs
        dsimp only
        split
        · exact run hx ha joined _
        · exact joined
  unfold acquireBody
  split
  · exact of_record hs
  · rename_i a _
    split
    · exact of_record hs
    · unfold State.admitted
      split
      · split
        · split
          · exact of_record hs
          · exact queued a true
        · rename_i k hk
          split
          · refine of_record ?_
            have free := State.freeLeaseSlot_free hk
            have : i ≠ k := by
              rintro rfl
              rw [State.lease, hs, hx] at free
              cases free
            rw [State.grantNow, State.beginLease_leaseRecord, if_neg this]
            exact hs
          · exact of_record hs
      · split
        · exact of_record hs
        · exact queued a false

theorem renew (h : s.KeptOrFreed i x) (c : Client) (params : List Byte) : (renewBody c params s).2.KeptOrFreed i x := by
  unfold renewBody
  dsimp only
  split
  · rename_i k old hv
    split_ifs with policy recalling long
    · exact h
    · exact h
    · exact h
    · exact setLease hx h (State.resolveOwnLease_valid hv).1 (by rintro rfl; exact recalling ha) _
  · exact h

theorem downgrade (h : s.KeptOrFreed i x) (c : Client) (params : List Byte) :
    (downgradeBody c params s).2.KeptOrFreed i x := by
  unfold downgradeBody
  split
  · rename_i k old hv
    split_ifs with recalling
    · exact h
    · exact h
    · exact h
    · exact run hx ha (setLease hx h (State.resolveOwnLease_valid hv).1 (by rintro rfl; exact recalling ha) _) _
  · exact h

theorem cancel (h : s.KeptOrFreed i x) (c : Client) (params : List Byte) : (cancelBody c params s).2.KeptOrFreed i x := by
  unfold cancelBody
  split
  · exact endWaiter (s := s.giveBack c 2) hx ha h _ _ _
  · exact h
  · exact h
  · exact h

/-- TAKE_OFFLINE finds the record as it was when the queue has been removed (R72). -/
theorem takeOffline (hs : s.leaseRecord i = x) (params : List Byte) : (takeOfflineBody params s).2.KeptOrFreed i x := by
  have h : s.KeptOrFreed i x := of_record hs
  unfold takeOfflineBody
  split
  · exact h
  · rename_i r _
    dsimp only
    have dropped : (s.dropQueue r).KeptOrFreed i x := of_record ((s.dropWaiters_leaseRecord _ i).trans hs)
    split
    · exact h
    · exact h
    · exact run (s := s.beginDraining r) hx ha dropped _
    · exact dropped
    · exact dropped
    · exact dropped

theorem clearFence (h : s.KeptOrFreed i x) (params : List Byte) : (clearFenceBody params s).2.KeptOrFreed i x := by
  unfold clearFenceBody
  split
  · exact h
  · rename_i r _
    dsimp only
    split_ifs
    · refine run hx ha ?_ _
      unfold State.settleOrIdle
      dsimp only
      split <;> exact h
    · exact run hx ha (s := s.setResource r _) h _
    · exact h

theorem revoke (h : s.KeptOrFreed i x) (params : List Byte) : (revokeBody params s).2.KeptOrFreed i x := by
  unfold revokeBody
  split
  · split
    · exact h
    · split
      · exact run hx ha h _
      · split
        · exact run hx ha h _
        · exact h
  · exact h

/-- Every request keeps or frees the record. -/
theorem body (hs : s.leaseRecord i = x) (k : Kind) (p : Client) (params : List Byte) :
    (k.body p params s).2.KeptOrFreed i x := by
  have h : s.KeptOrFreed i x := of_record hs
  cases k <;> dsimp only [Kind.body]
  case acquire => exact acquire hx ha hs p params
  case renew => exact renew hx ha h p params
  case release =>
    unfold releaseBody
    split
    · exact run hx ha h _
    · exact h
  case downgrade => exact downgrade hx ha h p params
  case cancel => exact cancel hx ha h p params
  case takeOffline => exact takeOffline hx ha hs params
  case clearFence => exact clearFence hx ha h params
  case revoke => exact revoke hx ha h params
  case closeSession => exact endSession hx ha h _ _ _ _
  case evictClient =>
    unfold evictClientBody
    split
    · exact h
    · split_ifs
      · exact endSession hx ha h _ _ _ _
      · exact h
  case openSession => unfold openSessionBody; dsimp only; split <;> exact h
  case setThreshold => unfold setThresholdBody; split <;> exact h
  case queryLease => unfold queryLeaseBody; split <;> exact h
  case queryResource => unfold queryResourceBody; split <;> exact h
  case queryDevice => exact h
  case configureResource =>
    rcases configureResourceBody_cases params s with e | ⟨r, c, -, -, e⟩ <;> rw [e]
    · exact h
    · exact h
  case setOnline =>
    unfold setOnlineBody
    split
    · exact h
    · dsimp only
      split_ifs <;> exact h
  case setTimebase => unfold setTimebaseBody; dsimp only; split_ifs <;> exact h
  case setRights =>
    unfold setRightsBody
    split
    · split_ifs <;> exact h
    · exact h

/-! ### The expiries -/

/-- Every expiry keeps or frees the record: a WARN or a SLICE expiry is current for a lease in that phase, and the one
followed is in phase GRACE (R41, R90, R105). -/
theorem act (hg : l.phase = .grace) (h : s.KeptOrFreed i x) (e : Entry) : (e.purpose.act e s).KeptOrFreed i x := by
  have other : ∀ {k old}, s.currentLease e = some (k, old) → e.purpose ≠ .grace →
      s.lease k = some old ∧ old ≠ l := by
    intro k old hc hp
    obtain ⟨hk, purpose⟩ := State.currentLease_some hc
    refine ⟨hk, ?_⟩
    rintro rfl
    rw [hg] at purpose
    exact hp purpose.symm
  cases hp : e.purpose <;> dsimp only [Purpose.act]
  case warn =>
    unfold warnAct
    split
    · exact h
    · rename_i k old hc
      obtain ⟨hk, ho⟩ := other hc (by simp [hp])
      exact setLease (s := s.setBox old.holder _) hx h hk ho _
  case slice =>
    unfold sliceAct
    split
    · exact h
    · rename_i k old hc
      obtain ⟨hk, ho⟩ := other hc (by simp [hp])
      dsimp only
      split_ifs
      · exact setLease hx h hk ho _
      · exact run hx ha h _
  case expire => unfold expireAct; split; exacts [h, run hx ha h _]
  case grace => unfold graceAct; split; exacts [h, run hx ha h _]
  case wait =>
    unfold waitAct
    split
    · exact h
    · rename_i j w _
      exact endWaiter (s := (s.post w.client _).giveBack w.client 1) hx ha h _ _ _
  case settle =>
    unfold settleAct
    split
    · exact h
    · rename_i r _
      exact run (s := s.setResource r _) hx ha h _

end

end State.KeptOrFreed

/-! ### The commands -/

/-- All that a command but DEVICE_RESET can do to the lease table: nothing, or what the request, the expiry or the
teardown that the engine takes does to it. -/
theorem exec_leases_cases {s t : State} {c : Instr} (hc : c ≠ .deviceReset) (he : exec c s = .next t) :
    t.leases = s.leases ∨
    (∃ (k : Kind) (p : Client) (params : List Byte), t.leases = (k.body p params s.beginEvent).2.leases) ∨
    (∃ e : Entry, t.leases = (e.purpose.act e s.expiryTaken).leases) ∨
    ∃ p : Client, t.leases = (s.beginEvent.teardown p .portReset).1.leases := by
  have leads : ∀ {u : State} {table}, (.next u : Host.Outcome State Fault Refusal) = .next t → u.leases = table →
      t.leases = table := fun e h => Host.Outcome.next.inj e ▸ h
  have testHead : ∀ u v : State, (u.testHead v).leases = v.leases :=
    fun u v => congrArg (fun tables => tables.2.1) (u.testHead_tables v)
  have transactions : ∀ p received, (s.transact p received).leases = s.leases :=
    fun p received => congrArg (fun tables => tables.2.1) (s.transact_tables p received)
  induction c using command_cases with
  | kinds k p =>
    rw [exec_kind] at he
    rcases s.serve_cases p k (k.body p) with ⟨e, -⟩ | ⟨q, -, -, ⟨status, -, e⟩ | ⟨-, e⟩⟩ <;> rw [e] at he
    · exact .inl (leads he rfl)
    · exact .inl (leads he rfl)
    · exact .inr (.inl ⟨k, p, q.params, leads he (testHead _ _)⟩)
  | expiries u =>
    rw [exec_purpose, State.takeExpiry] at he
    split at he
    · exact .inl (leads he rfl)
    · rename_i e _
      split_ifs at he with hu
      · subst hu
        exact .inr (.inr (.inl ⟨e, leads he rfl⟩))
      · exact .inl (leads he rfl)
  | teardownClaim p =>
    simp only [exec, execTeardownClaim] at he
    split at he
    · have taken : (s.takeTeardown p).leases
          = (if (s.session p).isOpen then (s.beginEvent.teardown p .portReset).1 else s.beginEvent).leases := testHead _ _
      have taken := leads he ((State.setPort_leases _ _ _).trans taken)
      split at taken
      · exact .inr (.inr (.inr ⟨p, taken⟩))
      · exact .inl taken
    · exact .inl (leads he rfl)
  | unknownKind p =>
    simp only [exec, execUnknownKind] at he
    split at he
    · exact .inl (leads he rfl)
    · split at he <;> exact .inl (leads he rfl)
  | discardedUnserved p => exact .inl (leads he rfl)
  | expiryDelivery => exact .inl (leads he rfl)
  | tick => exact .inl (leads he (by split <;> rfl))
  | put p frame => exact .inl (leads he (transactions p _))
  | takeAnswer p flag seq more => exact .inl (leads he (transactions p _))
  | takeNotice p flag seq more => exact .inl (leads he (transactions p _))
  | status p more => exact .inl (leads he (transactions p _))
  | unknownTransaction p selector more => exact .inl (leads he (transactions p _))
  | cutTransaction p received => exact .inl (leads he (transactions p _))
  | placeAnswer p => exact .inl (leads he rfl)
  | portReset p =>
    simp only [exec, execPortReset] at he
    split at he <;> exact .inl (leads he rfl)
  | pclrDeasserted p => exact .inl (leads he rfl)
  | deviceReset => exact absurd rfl hc
  | resetDeasserted =>
    simp only [exec, execResetDeasserted] at he
    split at he <;> exact .inl (leads he rfl)

/-- DEVICE_RESET frees every lease slot (R25). -/
theorem lease_of_deviceReset {s t : State} (he : exec .deviceReset s = .next t) (i : LeaseSlot) : t.lease i = none := by
  rw [← Host.Outcome.next.inj he]
  simp [State.lease, State.leaseRecord, State.reset, LeaseRecord.atReset]

/-- A command leaves the record of a slot with a RECALLING lease as it is, unless it frees the slot (R74, R76). -/
theorem exec_recalling {s t : State} {i : LeaseSlot} {l : Lease} {c : Instr} (hc : c ≠ .deviceReset)
    (he : exec c s = .next t) (hl : s.lease i = some l) (ha : l.state ≠ .active) (hg : l.phase = .grace)
    (hi : (t.leaseRecord i).incarnation = (s.leaseRecord i).incarnation) : t.leaseRecord i = s.leaseRecord i := by
  have after : ∀ u : State, t.leases = u.leases → u.KeptOrFreed i (s.leaseRecord i) →
      t.leaseRecord i = s.leaseRecord i := by
    intro u e h
    have same : t.leaseRecord i = u.leaseRecord i := congrArg (fun leases => leases[i]) e
    rw [same] at hi ⊢
    exact h.record hi
  have begun : ∀ u : State, u.leases = s.leases → u.leaseRecord i = s.leaseRecord i :=
    fun u e => congrArg (fun leases => leases[i]) e
  rcases exec_leases_cases hc he with e | ⟨k, p, params, e⟩ | ⟨e', e⟩ | ⟨p, e⟩
  · exact begun t e
  · exact after _ e (State.KeptOrFreed.body hl ha (begun s.beginEvent rfl) k p params)
  · exact after _ e (State.KeptOrFreed.act hl ha hg (.of_record (begun s.expiryTaken rfl)) e')
  · exact after _ e (State.KeptOrFreed.endSession hl ha (.of_record (begun s.beginEvent rfl)) p _ _ _)

/-- Settles O23: a slot that is not freed keeps its whole record, in a REFCLK cycle and in every command; DEVICE_RESET
leaves no lease. -/
theorem recallingNeverReturns : Obligations.RecallingNeverReturns := by
  intro s t i l l' phases hstep hl ha hl' hi
  have grace : l.phase = .grace := (phases i l hl).1 ha
  have kept : t.leaseRecord i = s.leaseRecord i := by
    unfold step at hstep
    split at hstep
    · rw [← Host.Outcome.next.inj hstep]
      exact congrArg (fun tables => tables.2.1[i]) s.refclk_tables
    · rename_i c rest _
      by_cases hc : c = .deviceReset
      · subst hc
        rw [lease_of_deviceReset hstep] at hl'
        cases hl'
      · exact exec_recalling (s := { s with pending := rest }) hc hstep hl ha grace hi
  rw [State.lease, kept] at hl'
  exact Option.some.inj (hl'.symm.trans hl)

end Sys2Proof.Machine
end

section
/-!
The time base (R95 to R98, R103, R108): ticks across a wrap of the counter, the cycles of one tick, SET_TIMEBASE, and the
deadline list's delivery test.
-/

namespace Sys2Proof.Machine

/-! ### Tick arithmetic (R97, R98) -/

theorem reached_iff {now due : Tick} : reached now due = true ↔ (now - due).toNat < 2 ^ 31 := by simp [reached]

theorem reached_eq_false_iff {now due : Tick} : reached now due = false ↔ 2 ^ 31 ≤ (now - due).toNat := by
  simp [reached]

theorem remaining_of_reached {now due : Tick} (h : reached now due = true) : remaining now due = 0 := if_pos h

theorem remaining_of_not_reached {now due : Tick} (h : reached now due = false) : remaining now due = due - now := by
  simp [remaining, h]

/-- Settles O40: the difference of the two ticks does not depend on where the counter started. -/
theorem ticksAcrossTheWrap : Obligations.TicksAcrossTheWrap := by
  intro start d k hd hk due now
  have ahead : now - due = BitVec.ofNat 32 k - BitVec.ofNat 32 d := add_sub_add_left_eq_sub _ _ _
  have behind : due - now = BitVec.ofNat 32 d - BitVec.ofNat 32 k := add_sub_add_left_eq_sub _ _ _
  have ticks : (now - due).toNat = if d ≤ k then k - d else 2 ^ 32 - (d - k) := by
    rw [ahead, BitVec.toNat_sub, BitVec.toNat_ofNat, BitVec.toNat_ofNat]
    split <;> omega
  have iff : reached now due = true ↔ d ≤ k := by
    rw [reached_iff, ticks]
    split <;> omega
  refine ⟨iff, ?_⟩
  by_cases h : d ≤ k
  · rw [remaining_of_reached (iff.2 h), Nat.sub_eq_zero_of_le h]
    rfl
  · rw [remaining_of_not_reached (Bool.eq_false_iff.2 (mt iff.1 h)), behind]
    apply BitVec.eq_of_toNat_eq
    rw [BitVec.toNat_sub, BitVec.toNat_ofNat, BitVec.toNat_ofNat, BitVec.toNat_ofNat]
    omega

/-! ### The cycles of one tick (R95, R96) -/

theorem State.refclk_of_held {s : State} (h : s.resetHeld = true) : s.refclk = s := if_pos h

theorem State.refclk_within_tick {s : State} (h : s.resetHeld = false)
    (hp : s.timeBase.prescaler + 1 < s.timeBase.divisor) :
    s.refclk = s.setTimeBase { s.timeBase with prescaler := s.timeBase.prescaler + 1 } := by
  simp [State.refclk, h, hp]

theorem State.refclk_ends_tick {s : State} (h : s.resetHeld = false)
    (hp : s.timeBase.divisor ≤ s.timeBase.prescaler + 1) : s.refclk = s.advance := by
  simp [State.refclk, h, hp]

theorem State.advance_pending (s : State) : s.advance.pending = s.pending := rfl

theorem step_of_idle {s : State} (h : s.pending = []) : step s = .next s.refclk := by simp [step, h]

theorem run_succ_of_idle {s : State} (h : s.pending = []) (n : Nat) :
    Host.Core.run Sys2Proof.core (n + 1) s = Host.Core.run Sys2Proof.core n s.refclk := by
  have hs : Sys2Proof.core.step s = .next s.refclk := step_of_idle h
  simp only [Host.Core.run, hs]

theorem run_of_held {s : State} (hp : s.pending = []) (h : s.resetHeld = true) (n : Nat) :
    Host.Core.run Sys2Proof.core n s = .next s := by
  induction n with
  | zero => rfl
  | succ n ih =>
    have next := run_succ_of_idle hp n
    rw [State.refclk_of_held h] at next
    exact next.trans ih

/-- The cycles that are left of a tick: all but the last count the prescaler up. -/
theorem run_cycles (n : Nat) {s : State} (hp : s.pending = []) (h : s.resetHeld = false)
    (hn : s.timeBase.prescaler + (n + 1) = s.timeBase.divisor) :
    Host.Core.run Sys2Proof.core (n + 1) s = .next s.advance := by
  induction n generalizing s with
  | zero =>
    have next := run_succ_of_idle hp 0
    rw [State.refclk_ends_tick h (by omega)] at next
    exact next
  | succ n ih =>
    have next := run_succ_of_idle hp (n + 1)
    rw [State.refclk_within_tick h (by omega)] at next
    exact next.trans (ih hp h (by simp only [State.setTimeBase_timeBase]; omega))

/-- Settles O3. -/
theorem tickIsTheRestOfTheCycles : Obligations.TickIsTheRestOfTheCycles := by
  intro s hp hlt
  refine ⟨?_, rfl⟩
  have tick : exec .tick s = .next (if s.resetHeld then s else s.advance) := rfl
  rw [tick]
  obtain ⟨n, hn⟩ : ∃ n, s.timeBase.divisor - s.timeBase.prescaler = n + 1 := ⟨_, (Nat.succ_pred (by omega)).symm⟩
  rw [hn]
  cases h : s.resetHeld with
  | true => exact run_of_held hp h _
  | false => exact run_cycles n hp h (by omega)

/-! ### SET_TIMEBASE (R108) -/

theorem State.Frame.setTimeBase {s u : State} {m : Touched} (h : s.Frame u m) (hm : m.timeBase = true) (t : TimeBase) :
    s.Frame (u.setTimeBase t) m :=
  { h with timeBase := fun hf => by rw [hm] at hf; cases hf }

theorem State.allOffline_iff {s : State} : s.allOffline = true ↔ ∀ r : ResourceId, (s.resource r).state = .offline := by
  simp [State.allOffline, mem_resourceIds]

theorem setTimebaseBody_of_offline {params : List Byte} {s : State} (h1 : 1 ≤ (halfAt params 0).toNat)
    (h2 : (halfAt params 0).toNat ≤ 4096) (h : ∀ r : ResourceId, (s.resource r).state = .offline) :
    setTimebaseBody params s
      = (⟨.ok, halfBytes (halfAt params 0) ++ halfBytes (BitVec.ofNat 16 s.timeBase.divisor)⟩,
        s.setTimeBase { s.timeBase with divisor := (halfAt params 0).toNat, prescaler := 0 }) := by
  have fits : ¬ ((halfAt params 0).toNat = 0 ∨ Config.maxDivisor < (halfAt params 0).toNat) := by
    unfold Config.maxDivisor
    omega
  simp only [setTimebaseBody, if_neg fits, State.allOffline_iff.2 h, if_true]

/-- Settles O39. -/
theorem setTimebaseReplacesTheDivisor : Obligations.SetTimebaseReplacesTheDivisor := by
  intro p q s hs h1 h2 h
  have hb : Kind.body p .setTimebase q.params s.beginEvent = _ :=
    setTimebaseBody_of_offline (s := s.beginEvent) h1 h2 h
  refine ⟨_, hs.exec_quiet hb rfl, State.Inner.served_quiet ?_ p q _, rfl⟩
  have inner := State.Inner.start s { timeBase := true }
  exact ⟨inner.frame.setTimeBase rfl _, rfl, rfl⟩

/-! ### The delivery test (R103, R104) -/

/-- Settles O33. -/
theorem expiryDeliveryTakesTheHead : Obligations.ExpiryDeliveryTakesTheHead := by
  intro s
  refine ⟨rfl, fun e rest he ho hr => State.deliver_of_reached he ho (reached_iff.2 hr), fun h => ?_,
    fun t => ⟨fun h => if_pos h, fun h => if_neg h⟩⟩
  refine State.deliver_of_not_due fun ho e he => ?_
  obtain ⟨rest, hrest⟩ := List.head?_eq_some_iff.1 he
  exact reached_eq_false_iff.2 (h e rest hrest ho)

end Sys2Proof.Machine
end

section
/-!
Due ticks (R97, R100 to R102): how far ahead of the tick it is counted from an interval can end, and the order of the
deadline list while all its due ticks stand in one half of the tick range.
-/

namespace Sys2Proof.Machine

/-! ### The tick at which an interval ends -/

/-- The tick `due` ends an interval counted from `a`: of at most 65536 ticks, and of at least one where `sure` holds. -/
def EndsAfter (a due : Tick) (sure : Prop) : Prop :=
  ∃ k : Nat, k ≤ 65536 ∧ due = a + BitVec.ofNat 32 k ∧ (sure → 1 ≤ k)

theorem EndsAfter.mono {a due : Tick} {sure sure' : Prop} (h : EndsAfter a due sure) (hs : sure' → sure) :
    EndsAfter a due sure' := by
  obtain ⟨k, hk, e, h1⟩ := h
  exact ⟨k, hk, e, fun h => h1 (hs h)⟩

/-- A tick that is still to come is not reached (R97). -/
theorem EndsAfter.not_reached {now due : Tick} {sure : Prop} (h : EndsAfter now due sure) (hs : sure) :
    reached now due = false := by
  obtain ⟨k, hk, rfl, h1⟩ := h
  have ticks := ticksAcrossTheWrap now k 0 (by omega) (by omega)
  have here : now + BitVec.ofNat 32 0 = now := BitVec.add_zero now
  rw [here] at ticks
  have := h1 hs
  exact Bool.eq_false_iff.2 fun hr => by have := ticks.1.1 hr; omega

/-- With room for the longest interval, its end stands in the same half of the tick range. -/
theorem EndsAfter.in_half {a due base : Tick} {sure : Prop} (h : EndsAfter a due sure)
    (ha : (a - base).toNat + 65536 < 2 ^ 31) : (due - base).toNat < 2 ^ 31 := by
  obtain ⟨k, hk, rfl, -⟩ := h
  rw [add_sub_right_comm, BitVec.toNat_add, BitVec.toNat_ofNat]
  omega

theorem endsAfter_setWidth {w : Nat} (hw : w ≤ 16) (a : Tick) (x : BitVec w) :
    EndsAfter a (a + x.setWidth 32) (x ≠ 0) := by
  have fits := x.isLt
  have le : 2 ^ w ≤ 2 ^ 16 := Nat.pow_le_pow_right (by decide) hw
  refine ⟨x.toNat, by omega, by rw [BitVec.ofNat_toNat], fun h => ?_⟩
  have : x.toNat ≠ 0 := fun e => h (BitVec.eq_of_toNat_eq (by simpa using e))
  omega

theorem endsAfter_slice (c : ResourceConfig) (acc : Fin 16) (a : Tick) :
    EndsAfter a (a + (nextSlice c acc).2) (c.inRange = true) := by
  have fits := c.sliceTicks.isLt
  have h1 := acc.isLt
  have h2 := c.sliceTrim.isLt
  refine ⟨c.sliceTicks.toNat + (acc.val + c.sliceTrim.val) / 16, by omega, ?_, fun h => ?_⟩
  · rw [nextSlice_eq, BitVec.ofNat_add, BitVec.ofNat_toNat]
  · obtain ⟨-, -, -, -, -, ticks⟩ := ResourceConfig.inRange_iff.1 h
    omega

theorem endsAfter_term (c : ResourceConfig) (now : Tick) (term : Half) :
    EndsAfter now (termInterval c now term).deadline (c.inRange = true) := by
  by_cases h : 0 < c.warnLead ∧ c.warnLead < c.resolveTerm term
  · rw [termInterval_of_warned now term h]
    have lead : 0 < c.warnLead.toNat := h.1
    have lt : c.warnLead.toNat < (c.resolveTerm term).toNat := h.2
    have fits := (c.resolveTerm term).isLt
    have left : ((c.resolveTerm term).setWidth 32 - c.warnLead.setWidth 32 : Tick)
        = BitVec.ofNat 32 ((c.resolveTerm term).toNat - c.warnLead.toNat) := by
      apply BitVec.eq_of_toNat_eq
      rw [BitVec.toNat_sub, BitVec.toNat_setWidth, BitVec.toNat_setWidth, BitVec.toNat_ofNat]
      omega
    exact ⟨(c.resolveTerm term).toNat - c.warnLead.toNat, by omega, (add_sub_assoc _ _ _).trans (congrArg (now + ·) left),
      fun _ => by omega⟩
  · rw [termInterval_of_not_warned now term h]
    refine (endsAfter_setWidth le_rfl now _).mono fun hr => ?_
    obtain ⟨-, -, -, default, -⟩ := ResourceConfig.inRange_iff.1 hr
    unfold ResourceConfig.resolveTerm
    split
    · intro e
      rw [e] at default
      exact absurd default (by decide)
    · assumption

theorem endsAfter_grant (c : ResourceConfig) (now : Tick) (term : Half) :
    EndsAfter now (grantInterval c now term).deadline (c.inRange = true) := by
  unfold grantInterval
  split
  · exact endsAfter_term c now term
  · exact endsAfter_slice c 0 now

/-! ### Due order (R100) -/

/-- Within one half of the tick range, due order is the order of the distances from its beginning. -/
theorem dueAhead_eq_false_iff {a b base : Tick} (ha : (a - base).toNat < 2 ^ 31) (hb : (b - base).toNat < 2 ^ 31) :
    dueAhead a b = false ↔ (b - base).toNat ≤ (a - base).toNat := by
  have ticks : (a - b).toNat = (2 ^ 32 - (b - base).toNat + (a - base).toNat) % 2 ^ 32 := by
    rw [← sub_sub_sub_cancel_right a b base, BitVec.toNat_sub]
  rw [dueAhead, decide_eq_false_iff_not, ticks]
  omega

/-- These entries stand in due order, all in the half of the tick range that begins at `base`. -/
structure InDueOrder (base : Tick) (entries : List Entry) : Prop where
  order : entries.Pairwise fun a b => dueAhead b.due a.due = false
  half : ∀ x ∈ entries, (x.due - base).toNat < 2 ^ 31

namespace InDueOrder

variable {base : Tick} {entries : List Entry}

theorem sublist {rest : List Entry} (h : InDueOrder base entries) (hs : rest.Sublist entries) : InDueOrder base rest :=
  ⟨h.order.sublist hs, fun x hx => h.half x (hs.subset hx)⟩

theorem ascends (h : InDueOrder base entries) :
    entries.Pairwise fun a b => (a.due - base).toNat ≤ (b.due - base).toNat :=
  h.order.imp_of_mem fun ha hb hab => (dueAhead_eq_false_iff (h.half _ hb) (h.half _ ha)).1 hab

/-- A new entry stands behind those due no later and ahead of those due later. -/
theorem insertEntry_between (h : InDueOrder base entries) {e : Entry} (he : (e.due - base).toNat < 2 ^ 31) :
    ∃ ahead behind, entries = ahead ++ behind ∧ insertEntry e entries = ahead ++ e :: behind ∧
      (∀ x ∈ ahead, (x.due - base).toNat ≤ (e.due - base).toNat) ∧
      ∀ x ∈ behind, (e.due - base).toNat < (x.due - base).toNat := by
  obtain ⟨ahead, behind, rfl, inserted, le, lt⟩ := insertEntry_split e entries
  refine ⟨ahead, behind, rfl, inserted, fun x hx => ?_, fun x hx => ?_⟩
  · exact (dueAhead_eq_false_iff he (h.half x (by simp [hx]))).1 (le x hx)
  · cases behind with
    | nil => cases hx
    | cons y rest =>
      have first : (e.due - base).toNat < (y.due - base).toNat := by
        refine Nat.lt_of_not_le fun hle => ?_
        have := (dueAhead_eq_false_iff he (h.half y (by simp))).2 hle
        rw [lt y rfl] at this
        cases this
      rcases List.mem_cons.1 hx with rfl | hx
      · exact first
      · exact first.trans_le ((List.pairwise_cons.1 (List.pairwise_append.1 h.ascends).2.1).1 x hx)

theorem insertEntry (h : InDueOrder base entries) {e : Entry} (he : (e.due - base).toNat < 2 ^ 31) :
    InDueOrder base (insertEntry e entries) := by
  obtain ⟨ahead, behind, rfl, inserted, le, lt⟩ := h.insertEntry_between he
  have half : ∀ x ∈ ahead ++ e :: behind, (x.due - base).toNat < 2 ^ 31 := by
    intro x hx
    rcases List.mem_append.1 hx with hx | hx
    · exact h.half x (by simp [hx])
    · rcases List.mem_cons.1 hx with rfl | hx
      · exact he
      · exact h.half x (by simp [hx])
  obtain ⟨before, after, cross⟩ := List.pairwise_append.1 h.ascends
  have ascends : (ahead ++ e :: behind).Pairwise fun a b => (a.due - base).toNat ≤ (b.due - base).toNat := by
    refine List.pairwise_append.2 ⟨before, List.pairwise_cons.2 ⟨fun x hx => (lt x hx).le, after⟩, fun x hx y hy => ?_⟩
    rcases List.mem_cons.1 hy with rfl | hy
    · exact le x hx
    · exact cross x hx y hy
  rw [inserted]
  exact ⟨ascends.imp_of_mem fun ha hb hab => (dueAhead_eq_false_iff (half _ hb) (half _ ha)).2 hab, half⟩

theorem dropOwner (h : InDueOrder base entries) (o : Owner) : InDueOrder base (dropOwner o entries) :=
  h.sublist List.filter_sublist

end InDueOrder

theorem dropOwner_eq (o : Owner) (entries : List Entry) :
    dropOwner o entries = entries.filter fun x => decide (x.owner ≠ o) := by
  simp only [dropOwner, ne_eq, decide_not]

/-- An arm command keeps due order where all due ticks stand in one half of the range, and so does a cancel (R101, R102). -/
theorem arm_and_disarm_keep_order (s : State) (e : Entry) (base : Tick) (hs : s.DueOrder)
    (h : ∀ x ∈ e :: s.deadlines.entries, (x.due - base).toNat < 2 ^ 31) :
    (s.arm e).DueOrder ∧ (s.disarm e.owner).DueOrder ∧
    (s.disarm e.owner).deadlines.entries = s.deadlines.entries.filter (fun x => decide (x.owner ≠ e.owner)) ∧
    ∃ ahead behind, (s.arm e).deadlines.entries = ahead ++ e :: behind ∧
      ahead ++ behind = s.deadlines.entries.filter (fun x => decide (x.owner ≠ e.owner)) ∧
      (∀ x ∈ ahead, (x.due - base).toNat ≤ (e.due - base).toNat) ∧
      (∀ x ∈ behind, (e.due - base).toNat < (x.due - base).toNat) := by
  have order : InDueOrder base s.deadlines.entries := ⟨hs, fun x hx => h x (by simp [hx])⟩
  have he := h e (by simp)
  have others := order.dropOwner e.owner
  obtain ⟨ahead, behind, split, inserted, le, lt⟩ := others.insertEntry_between he
  exact ⟨(others.insertEntry he).order, others.order, dropOwner_eq _ _, ahead, behind, inserted,
    split.symm.trans (dropOwner_eq _ _), le, lt⟩

end Sys2Proof.Machine
end

section
/-!
SUPPORT. Events for the laws that speak of deadlines, notice boxes, rights or the time base beside the tables: the steps an
event is made of, each with its own arms and cancels, and all that a command can do to the records.
-/

namespace Sys2Proof.Machine

/-! ### Steps of a notice box (R128, R140) -/

/-- The attention line is as the queue and the threshold copy say (R140). -/
def NoticeBox.Settled (b : NoticeBox) : Prop := b.attention = attentionDue b.queue b.threshold

/-- The commands of the engine and the acknowledges of the port leave the threshold copy as it was, and the attention line
re-evaluated. -/
structure NoticeBox.StepsTo (b b' : NoticeBox) : Prop where
  threshold : b'.threshold = b.threshold
  settled : b.Settled → b'.Settled

namespace NoticeBox.StepsTo

theorem refl (b : NoticeBox) : b.StepsTo b := ⟨rfl, id⟩

theorem reserve (b : NoticeBox) (n : Nat) : b.StepsTo (b.reserve n) := ⟨rfl, id⟩

theorem giveBack (b : NoticeBox) (n : Nat) : b.StepsTo (b.giveBack n) := ⟨rfl, id⟩

theorem post (b : NoticeBox) (tick : Tick) (body : NoticeBody) : b.StepsTo (b.post tick body) := ⟨rfl, fun _ => rfl⟩

theorem empty (b : NoticeBox) : b.StepsTo b.empty := ⟨rfl, fun _ => rfl⟩

theorem warn (b : NoticeBox) (tick : Tick) (body : NoticeBody) : b.StepsTo (b.warn tick body) := by
  unfold NoticeBox.warn
  split
  · exact ⟨rfl, fun _ => rfl⟩
  · exact ⟨rfl, id⟩

theorem acknowledge (b : NoticeBox) (seq : Byte) : b.StepsTo (b.acknowledge seq) := by
  unfold NoticeBox.acknowledge
  split
  · split
    · exact ⟨rfl, fun _ => rfl⟩
    · exact refl b
  · exact refl b

end NoticeBox.StepsTo

/-! ### The steps of an event -/

/-- A property of the state and the work still to do that holds through every item of work, and through each first step
with which a request begins. -/
structure EventSteps (P : List Work → State → Prop) : Prop where
  start : ∀ work s, P [] s → P work s
  item : ∀ w rest s, P (w :: rest) s → P ((doWork w s).2 ++ rest) (doWork w s).1
  box : ∀ s c b, (s.box c).StepsTo b → P [] s → P [] (s.setBox c b)
  session : ∀ s c x, x.leaseCount = (s.session c).leaseCount → x.waiterCount = (s.session c).waiterCount →
    x.admin = (s.session c).admin → x.threshold = (s.session c).threshold → P [] s → P [] (s.setSession c x)
  threshold : ∀ s c x b, x.leaseCount = (s.session c).leaseCount → x.waiterCount = (s.session c).waiterCount →
    x.admin = (s.session c).admin → b.Settled → b.threshold = x.threshold → P [] s →
    P [] ((s.setSession c x).setBox c b)
  rights : ∀ s c v, ¬ (v = false ∧ (s.session c).admin = true ∧ s.onlyAdmin c = true) → P [] s →
    P [] (s.setSession c { s.session c with admin := v })
  timeBase : ∀ s d, 1 ≤ d → d ≤ Config.maxDivisor → P [] s →
    P [] (s.setTimeBase { s.timeBase with divisor := d, prescaler := 0 })
  configure : ∀ s r c, (s.resource r).state = .offline → c.inRange = true → P [] s →
    P [] (s.setResource r { s.resource r with config := c })
  downgrade : ∀ s i l, s.lease i = some l → P [] s → P [] (s.setLease i { l with mode := .shared })
  renew : ∀ s i l term, s.lease i = some l → l.state = .active → P [] s →
    P [] (s.rearmed i (l.renewed (termInterval (s.resource l.resource).config s.now term)))
  grant : ∀ s c a i, s.admission c a = none → s.immediateAllowed a = true → s.freeLeaseSlot = some i → P [] s →
    P [] (s.beginLease i a.resource c a.mode a.urgency (grantInterval (s.resource a.resource).config s.now a.term))
  queue : ∀ s c a j full, s.admission c a = none → s.freeWaiterSlot = some j → a.waitLimit ≠ 0 → P [] s →
    P [] (s.queued c a j full)
  freeWaiter : ∀ s j o, P [] s → P [] (s.freeWaiter j o)
  online : ∀ s r, (s.resource r).state = .offline → P [] s → P [] (s.setResource r { s.resource r with state := .idle })
  offline : ∀ s r, P [] s → P [] (s.offlineNow r)
  drain : ∀ s r, (s.resource r).state = .held → P [] s → P [] (s.beginDraining r)
  unfence : ∀ s r, (s.resource r).state = .fenced → P [] s → P [] (s.settleOrIdle r).1
  unmark : ∀ s r, P [] s → P [] (s.setResource r { s.resource r with fenceMark := false })

namespace EventSteps

variable {P : List Work → State → Prop} (h : EventSteps P) {s : State}

include h

/-! ### Steps that several requests share -/

theorem done {work : List Work} (hl : work.length ≤ 12) (hs : P work s) : P [] (s.run work) :=
  State.run_done h.item hl hs

theorem run {work : List Work} (hl : work.length ≤ 12) (hs : P [] s) : P [] (s.run work) := h.done hl (h.start _ _ hs)

theorem giveBack (c : Client) (n : Nat) (hs : P [] s) : P [] (s.giveBack c n) := h.box s c _ (.giveBack _ n) hs

theorem endWaiter (j : WaiterSlot) (w : Waiter) (o : Outcome) (hs : P [] s) :
    P [] ((s.endWaiter j w o).1.run (s.endWaiter j w o).2) := by
  refine h.run ?_ (h.freeWaiter s j o hs)
  unfold State.endWaiter
  dsimp only
  split <;> simp

theorem endSession (c : Client) (o : Outcome) (cause : EndCause) (e : SessionEnd) (hs : P [] s) :
    P [] (s.endSession c o cause e).1 := by
  have waiters : P [] (s.removeWaiters c o) := h.run (by simp [resourceIds]) hs
  have leases : P [] ((s.removeWaiters c o).endLeases c cause) := h.run (by simp [resourceIds]) waiters
  exact h.session _ c _ rfl rfl rfl rfl (h.box _ c _ (.empty _) leases)

/-! ### The requests -/

theorem queuedPath {c : Client} {a : AcquireParams} (full : Bool) (ha : s.admission c a = none)
    (hw : a.waitLimit ≠ 0) (hs : P [] s) : P [] (s.queuedPath c a full).2 := by
  unfold State.queuedPath
  split
  · exact hs
  · rename_i j hj
    split
    · exact hs
    · have joined := h.queue s c a j full ha hj hw hs
      dsimp only
      split
      · exact h.run (by simp) joined
      · exact joined

theorem acquire (c : Client) (params : List Byte) (hs : P [] s) : P [] (acquireBody c params s).2 := by
  unfold acquireBody
  split
  · exact hs
  · rename_i a _
    split
    · exact hs
    · rename_i ha
      unfold State.admitted
      split
      · rename_i hi
        split
        · split_ifs with hw
          · exact hs
          · exact h.queuedPath true ha hw hs
        · rename_i i hfree
          split
          · exact h.grant _ c a i ha hi hfree (h.box s c _ (.reserve _ 1) hs)
          · exact hs
      · split_ifs with hw
        · exact hs
        · exact h.queuedPath false ha hw hs

theorem renewed (c : Client) (params : List Byte) (hs : P [] s) : P [] (renewBody c params s).2 := by
  unfold renewBody
  dsimp only
  split
  · rename_i i l hv
    split_ifs with hp ha
    · exact hs
    · exact hs
    · exact hs
    · exact h.renew s i l _ (State.resolveOwnLease_valid hv).1 (not_not.1 ha) hs
  · exact hs

theorem downgraded (c : Client) (params : List Byte) (hs : P [] s) : P [] (downgradeBody c params s).2 := by
  unfold downgradeBody
  split
  · rename_i i l hv
    split_ifs
    · exact hs
    · exact hs
    · exact hs
    · exact h.run (by simp) (h.downgrade s i l (State.resolveOwnLease_valid hv).1 hs)
  · exact hs

theorem cancel (c : Client) (params : List Byte) (hs : P [] s) : P [] (cancelBody c params s).2 := by
  unfold cancelBody
  split
  · exact h.endWaiter _ _ _ (h.giveBack c 2 hs)
  · exact hs
  · exact hs
  · exact hs

theorem takeOffline (params : List Byte) (hs : P [] s) : P [] (takeOfflineBody params s).2 := by
  unfold takeOfflineBody
  split
  · exact hs
  · rename_i r _
    have recalls : ((s.beginDraining r).drainRecalls r).length ≤ 12 := by
      rw [State.drainRecalls, List.length_map]
      exact (State.activeHolders_length _ r).trans (by decide)
    dsimp only
    split
    · exact hs
    · exact hs
    · exact h.run recalls (h.drain s r ‹_› hs)
    · exact h.offline s r hs
    · exact h.offline s r hs
    · exact h.offline s r hs

theorem clearFence (params : List Byte) (hs : P [] s) : P [] (clearFenceBody params s).2 := by
  unfold clearFenceBody
  split
  · exact hs
  · rename_i r _
    dsimp only
    split_ifs with fenced
    · refine h.run ?_ (h.unfence s r fenced hs)
      simp only [State.settleOrIdle]
      split <;> simp
    · exact h.run (by simp) (h.unmark s r hs)
    · exact hs

theorem revoke (params : List Byte) (hs : P [] s) : P [] (revokeBody params s).2 := by
  unfold revokeBody
  split
  · split
    · exact hs
    · split
      · exact h.run (by simp) hs
      · split
        · exact h.run (by simp) hs
        · exact hs
  · exact hs

/-- Every request keeps the property. -/
theorem body (k : Kind) (p : Client) (params : List Byte) (hs : P [] s) : P [] (k.body p params s).2 := by
  cases k <;> dsimp only [Kind.body]
  case acquire => exact h.acquire p params hs
  case renew => exact h.renewed p params hs
  case downgrade => exact h.downgraded p params hs
  case cancel => exact h.cancel p params hs
  case takeOffline => exact h.takeOffline params hs
  case clearFence => exact h.clearFence params hs
  case revoke => exact h.revoke params hs
  case closeSession => exact h.endSession _ _ _ _ hs
  case release => unfold releaseBody; split; exacts [h.run (by simp) hs, hs]
  case openSession =>
    unfold openSessionBody
    dsimp only
    split
    · exact hs
    · exact h.threshold s p _ _ rfl rfl rfl rfl rfl hs
  case setThreshold =>
    unfold setThresholdBody
    split
    · exact hs
    · exact h.threshold s p _ _ rfl rfl rfl rfl rfl hs
  case queryLease => unfold queryLeaseBody; split <;> exact hs
  case queryResource => unfold queryResourceBody; split <;> exact hs
  case queryDevice => exact hs
  case configureResource =>
    rcases configureResourceBody_cases params s with e | ⟨r, c, hr, hc, e⟩ <;> rw [e]
    · exact hs
    · exact h.configure s r c hr hc hs
  case setOnline =>
    unfold setOnlineBody
    split
    · exact hs
    · dsimp only
      split_ifs with offline
      · exact h.online s _ offline hs
      · exact hs
  case setTimebase =>
    unfold setTimebaseBody
    dsimp only
    split_ifs with outOfRange
    · exact hs
    · obtain ⟨positive, fits⟩ := not_or.1 outOfRange
      exact h.timeBase s _ (Nat.pos_of_ne_zero positive) (Nat.le_of_not_lt fits) hs
    · exact hs
  case setRights =>
    unfold setRightsBody
    split
    · split_ifs with last
      · exact hs
      · exact h.rights s _ _ last hs
    · exact hs
  case evictClient =>
    unfold evictClientBody
    split
    · exact hs
    · split_ifs
      · exact h.endSession _ _ _ _ hs
      · exact hs

end EventSteps

/-! ### All that a command can do to the records -/

/-- Every record of the part but the gate unit's and the ports'. -/
def State.records (s : State) : TimeBase × DeadlineList × Vector Resource 12 × Vector LeaseRecord 32 ×
    Vector WaiterRecord 24 × Vector Session 4 × Vector NoticeBox 4 :=
  (s.timeBase, s.deadlines, s.resources, s.leases, s.waiters, s.sessions, s.notices)

/-- What differs in nothing but RESET_N's level, the gate unit, the ports and the waiting commands has the same delivery
test. -/
theorem State.deliver_records {s t : State} (h : t.records = s.records) : t.deliver.records = s.deliver.records := by
  cases s; cases t
  simp only [State.records, Prod.mk.injEq] at h
  obtain ⟨rfl, rfl, rfl, rfl, rfl, rfl, rfl⟩ := h
  rfl

theorem State.testHead_records {s t u : State} (h : t.records = u.records) :
    (s.testHead t).records = (s.testHead u).records := by
  have entries : t.deadlines = u.deadlines := congrArg (fun records => records.2.1) h
  unfold State.testHead
  rw [entries]
  split
  · exact h
  · exact State.deliver_records h

/-- From `s` to `t` no record has changed but one notice box by an acknowledge. -/
def State.Unmoved (s t : State) : Prop :=
  ∃ (c : Client) (b : NoticeBox), (s.box c).StepsTo b ∧ t.records = (s.setBox c b).records

theorem State.Unmoved.of_records {s t : State} (h : t.records = s.records) : s.Unmoved t :=
  ⟨0, s.box 0, .refl _, by rw [h, State.setBox_box_eq]⟩

/-- A transaction acknowledges a notice at most (R137, R148). -/
theorem State.transact_unmoved (s : State) (p : Client) (received : List Byte) : s.Unmoved (s.transact p received) := by
  have take : ∀ answers received, s.Unmoved (s.take p answers received).state := by
    intro answers received
    unfold State.take
    split
    · exact .of_records rfl
    · split
      · exact .of_records rfl
      · split
        · exact .of_records rfl
        · split
          · exact .of_records rfl
          · unfold State.takeNoticeStep
            dsimp only
            split
            · exact ⟨p, _, .acknowledge _ _, rfl⟩
            · exact ⟨p, _, .refl _, rfl⟩
  have selected : ∀ selector received, s.Unmoved (s.selected p selector received).state := by
    intro selector received
    unfold State.selected
    split_ifs
    · exact .of_records rfl
    · exact take _ _
    · exact take _ _
    · exact .of_records rfl
  unfold State.transact
  split
  · exact .of_records rfl
  · split
    · exact .of_records rfl
    · exact selected _ _

/-- All that a command but DEVICE_RESET can do to the records: nothing beside an acknowledge, a tick, a delivery, or what
the request, the expiry or the teardown that the engine takes does, with the delivery test behind it. -/
theorem exec_records_cases {s t : State} {c : Instr} (hc : c ≠ .deviceReset) (he : exec c s = .next t) :
    s.Unmoved t ∨ t.records = s.advance.records ∨ t.records = s.deliver.records ∨
    (∃ (k : Kind) (p : Client) (params : List Byte),
      t.records = (s.testHead (k.body p params s.beginEvent).2).records) ∨
    (∃ e, s.deadlines.owed = some e ∧ t.records = (e.purpose.act e s.expiryTaken).deliver.records) ∨
    ∃ p : Client, t.records = (s.testHead (s.beginEvent.teardown p .portReset).1).records := by
  have leads : ∀ {u : State} {records}, (.next u : Host.Outcome State Fault Refusal) = .next t →
      u.records = records → t.records = records := fun e h => Host.Outcome.next.inj e ▸ h
  have same : ∀ {u : State}, (.next u : Host.Outcome State Fault Refusal) = .next t → u.records = s.records →
      s.Unmoved t := fun e h => .of_records (leads e h)
  have transaction : ∀ p received, (.next (s.transact p received) : Host.Outcome State Fault Refusal) = .next t →
      s.Unmoved t := fun p received e => Host.Outcome.next.inj e ▸ s.transact_unmoved p received
  induction c using command_cases with
  | kinds k p =>
    rw [exec_kind] at he
    rcases s.serve_cases p k (k.body p) with ⟨e, -⟩ | ⟨q, -, -, ⟨status, -, e⟩ | ⟨-, e⟩⟩ <;> rw [e] at he
    · exact .inl (same he rfl)
    · exact .inl (same he rfl)
    · refine .inr (.inr (.inr (.inl ⟨k, p, q.params, leads he ?_⟩)))
      exact State.testHead_records (t := (k.body p q.params s.beginEvent).2.endEvent) rfl
  | expiries u =>
    rw [exec_purpose, State.takeExpiry] at he
    split at he
    · exact .inl (same he rfl)
    · rename_i e howed
      split_ifs at he with hu
      · subst hu
        refine .inr (.inr (.inr (.inr (.inl ⟨e, howed, leads he ?_⟩))))
        exact State.deliver_records (t := (e.purpose.act e s.expiryTaken).endEvent) rfl
      · exact .inl (same he rfl)
  | teardownClaim p =>
    simp only [exec, execTeardownClaim] at he
    split at he
    · have taken : (s.takeTeardown p).records
          = (s.testHead (if (s.session p).isOpen then (s.beginEvent.teardown p .portReset).1 else s.beginEvent)).records :=
        State.testHead_records rfl
      split at taken
      · exact .inr (.inr (.inr (.inr (.inr ⟨p, leads he taken⟩))))
      · refine .inl (same he (taken.trans ?_))
        rw [State.testHead_of_deadlines (s := s) (t := s.beginEvent) rfl]
        rfl
    · exact .inl (same he rfl)
  | unknownKind p =>
    simp only [exec, execUnknownKind] at he
    split at he
    · exact .inl (same he rfl)
    · split at he <;> exact .inl (same he rfl)
  | tick =>
    cases hr : s.resetHeld <;> simp only [exec, execTick, hr, if_true, Bool.false_eq_true, if_false] at he
    · exact .inr (.inl (leads he rfl))
    · exact .inl (same he rfl)
  | expiryDelivery => exact .inr (.inr (.inl (leads he rfl)))
  | discardedUnserved p => exact .inl (same he rfl)
  | put p frame => exact .inl (transaction p _ he)
  | takeAnswer p flag seq more => exact .inl (transaction p _ he)
  | takeNotice p flag seq more => exact .inl (transaction p _ he)
  | status p more => exact .inl (transaction p _ he)
  | unknownTransaction p selector more => exact .inl (transaction p _ he)
  | cutTransaction p received => exact .inl (transaction p _ he)
  | placeAnswer p => exact .inl (same he rfl)
  | portReset p =>
    simp only [exec, execPortReset] at he
    split at he <;> exact .inl (same he rfl)
  | pclrDeasserted p => exact .inl (same he rfl)
  | deviceReset => exact absurd rfl hc
  | resetDeasserted =>
    simp only [exec, execResetDeasserted] at he
    split at he <;> exact .inl (same he rfl)

end Sys2Proof.Machine
end

section
/-!
SUPPORT. Properties of the state that every single write of an event keeps, so that every event keeps them: for the laws
that do not tie one record to another.
-/

namespace Sys2Proof.Machine

/-- A property that every write of an event keeps. Its states have their counter among `anchors`, and an arm command sets a
deadline at most the longest interval behind one of these. -/
structure KeptByEvents (anchors : List Tick) (P : State → Prop) : Prop where
  now : ∀ s, P s → s.now ∈ anchors
  resource : ∀ s r x, x.config = (s.resource r).config → P s → P (s.setResource r x)
  configure : ∀ s r (c : ResourceConfig), c.inRange = true → P s → P (s.setResource r { s.resource r with config := c })
  lease : ∀ s i x, P s → P (s.setLeaseRecord i x)
  waiter : ∀ s j x, P s → P (s.setWaiterRecord j x)
  session : ∀ s c x, x.admin = (s.session c).admin → x.threshold = (s.session c).threshold → P s → P (s.setSession c x)
  box : ∀ s c b, (s.box c).StepsTo b → P s → P (s.setBox c b)
  threshold : ∀ s c x b, x.admin = (s.session c).admin → b.Settled → b.threshold = x.threshold → P s →
    P ((s.setSession c x).setBox c b)
  rights : ∀ s c v, ¬ (v = false ∧ (s.session c).admin = true ∧ s.onlyAdmin c = true) → P s →
    P (s.setSession c { s.session c with admin := v })
  timeBase : ∀ s d, 1 ≤ d → d ≤ Config.maxDivisor → P s → P (s.setTimeBase { s.timeBase with divisor := d, prescaler := 0 })
  arm : ∀ s e, (∃ a ∈ anchors, EndsAfter a e.due False) → P s → P (s.arm e)
  disarm : ∀ s o, P s → P (s.disarm o)
  gate : ∀ s g, P s → P (s.setGate g)

namespace KeptByEvents

variable {anchors : List Tick} {P : State → Prop} (h : KeptByEvents anchors P) {s : State}

include h

/-! ### The operations of the engine -/

/-- An arm command for an interval counted from the taken tick. -/
theorem armFromNow {e : Entry} {sure : Prop} (he : EndsAfter s.now e.due sure) (hs : P s) : P (s.arm e) :=
  h.arm s e ⟨s.now, h.now s hs, he.mono False.elim⟩ hs

theorem post (c : Client) (body : NoticeBody) (hs : P s) : P (s.post c body) := h.box s c _ (.post _ _ _) hs

theorem giveBack (c : Client) (n : Nat) (hs : P s) : P (s.giveBack c n) := h.box s c _ (.giveBack _ n) hs

theorem setLease (i : LeaseSlot) (l : Lease) (hs : P s) : P (s.setLease i l) := h.lease s i _ hs

theorem rearmed (i : LeaseSlot) {l : Lease} (hl : ∃ a ∈ anchors, EndsAfter a l.deadline False) (hs : P s) :
    P (s.rearmed i l) := h.arm (s.setLease i l) _ hl (h.setLease i l hs)

theorem rearmedFromNow (i : LeaseSlot) {l : Lease} {sure : Prop} (hl : EndsAfter s.now l.deadline sure) (hs : P s) :
    P (s.rearmed i l) := h.rearmed i ⟨s.now, h.now s hs, hl.mono False.elim⟩ hs

theorem beginLease (i : LeaseSlot) (r : ResourceId) (c : Client) (m : Mode) (u : Urgency) {iv : Interval} {sure : Prop}
    (hi : EndsAfter s.now iv.deadline sure) (hs : P s) : P (s.beginLease i r c m u iv) := by
  have armed := h.rearmedFromNow i (l := ⟨r, c, m, u, .active, iv.phase, iv.deadline, iv.trim⟩) hi hs
  exact h.session _ c _ rfl rfl (h.gate _ _ (h.resource _ r _ (by rfl) armed))

theorem freeWaiter (j : WaiterSlot) (o : Outcome) (hs : P s) : P (s.freeWaiter j o) := by
  cases hw : s.waiter j with
  | none => rwa [State.freeWaiter_of_none hw]
  | some w =>
    rw [State.freeWaiter_eq o hw]
    exact h.session _ _ _ (by rfl) (by rfl) (h.waiter _ j _ (h.disarm _ _ (h.resource s _ _ (by rfl) hs)))

theorem freeLease (i : LeaseSlot) (cause : EndCause) (hs : P s) : P (s.freeLease i cause) := by
  unfold State.freeLease
  split
  · exact hs
  · rename_i l _
    split
    · exact hs
    · have cancelled := h.disarm s (.lease i) hs
      refine h.session _ l.holder _ (by rfl) (by rfl) (h.lease _ i _ ?_)
      split
      · exact h.giveBack l.holder 1 cancelled
      · exact cancelled

theorem enqueue (j : WaiterSlot) {w : Waiter} {sure : Prop} (hw : EndsAfter s.now w.deadline sure) (hs : P s) :
    P (s.enqueue j w) := by
  have reserved := h.box _ w.client _ (.reserve _ 2) (h.waiter s j { s.waiterRecord j with waiter := some w } hs)
  refine h.session _ _ _ (by rfl) (by rfl) (h.resource _ _ _ (by rfl) ?_)
  exact h.armFromNow hw reserved

theorem grantWaiter (j : WaiterSlot) (w : Waiter) (i : LeaseSlot) (hs : P s) : P (s.grantWaiter j w i) := by
  rw [State.grantWaiter_eq]
  exact h.freeWaiter j _ (h.beginLease (s := s.post w.client _) i _ _ _ _
    (endsAfter_grant (s.resource w.resource).config s.now w.term) (h.post w.client _ hs))

theorem walkQueue (r : ResourceId) (queue : List WaiterSlot) (n : Nat) (hs : P s) : P (walkQueue r queue s n).state := by
  induction queue generalizing s n with
  | nil => exact hs
  | cons j rest ih =>
    unfold Machine.walkQueue
    split
    · exact hs
    · split
      · split
        · exact hs
        · exact ih _ (h.grantWaiter j _ _ hs)
      · exact hs

theorem passWalk (r : ResourceId) (hs : P s) : P (s.passWalk r).state := by
  unfold State.passWalk
  split
  · exact h.walkQueue r _ 0 hs
  · exact hs

theorem settleOrIdle (r : ResourceId) (hs : P s) : P (s.settleOrIdle r).1 := by
  unfold State.settleOrIdle
  dsimp only
  split
  · exact h.resource s r _ (by rfl) hs
  · exact h.armFromNow (endsAfter_setWidth (by decide) _ _) (h.resource s r _ (by rfl) hs)

theorem afterLeaseLeft (r : ResourceId) (cause : EndCause) (hs : P s) : P (s.afterLeaseLeft r cause).1 := by
  have left := h.resource s r _ (Resource.left_config (s.resource r) cause s.now) hs
  rcases s.afterLeaseLeft_cases r cause with ⟨-, -, e⟩ | ⟨-, e, -⟩ <;> rw [e]
  · exact hs
  · split
    · exact h.armFromNow (endsAfter_setWidth (by decide) s.now _) left
    · exact left

/-- Every item of work keeps the property. -/
theorem doWork (w : Work) (s : State) (hs : P s) : P (doWork w s).1 := by
  cases w with
  | pass r => exact h.resource _ r _ (by rfl) (h.passWalk r hs)
  | check r => exact hs
  | recallLease i reason grace =>
    simp only [Machine.doWork, State.recallLease]
    split
    · exact hs
    · rename_i l _
      have posted := fun body => h.post l.holder body hs
      split
      · split
        · exact h.setLease i _ (posted _)
        · exact h.rearmedFromNow (s := s.post l.holder _) i (l := l.recalled reason s.now grace)
            (endsAfter_setWidth (by decide) s.now grace) (posted _)
      · exact hs
  | endLease i cause =>
    simp only [Machine.doWork, State.endLeaseStep]
    split
    · exact hs
    · split
      · exact h.afterLeaseLeft _ cause (h.resource _ _ _ (by rfl) (h.gate s _ hs))
      · exact hs
  | freeSlot i cause => exact h.freeLease i cause hs
  | starvedFrom index => simp only [Machine.doWork]; split <;> exact hs
  | endHolding r c cause => simp only [Machine.doWork]; split <;> exact hs
  | removeWaiting r c o =>
    simp only [Machine.doWork, State.removeWaitingStep]
    split
    · exact hs
    · split
      · exact hs
      · exact h.freeWaiter _ o (h.giveBack c 2 hs)

theorem run (work : List Work) (hs : P s) : P (s.run work) := s.run_keeps P h.doWork work hs

theorem dropQueue (r : ResourceId) (hs : P s) : P (s.dropQueue r) := by
  rw [State.dropQueue_eq]
  generalize (s.resource r).queue = slots
  induction slots generalizing s with
  | nil => exact hs
  | cons j slots ih =>
    refine ih ?_
    unfold State.dropWaiterOffline
    split
    · exact hs
    · exact h.freeWaiter j _ (h.giveBack _ 1 (h.post _ _ hs))

/-! ### The requests and the expiries -/

theorem steps : EventSteps fun _ => P where
  start _ _ hs := hs
  item w _ s hs := h.doWork w s hs
  box := h.box
  session s c x _ _ admin threshold hs := h.session s c x admin threshold hs
  threshold s c x b _ _ admin settled same hs := h.threshold s c x b admin settled same hs
  rights := h.rights
  timeBase := h.timeBase
  configure s r c _ inRange hs := h.configure s r c inRange hs
  downgrade s i _ _ hs := h.setLease i _ hs
  renew s i _ _ _ _ hs := h.rearmedFromNow i (endsAfter_term _ s.now _) hs
  grant s _ _ i _ _ _ hs := h.beginLease i _ _ _ _ (endsAfter_grant _ s.now _) hs
  queue s c a j full _ _ _ hs := by
    have joined : P (s.enqueue j (a.waiter c s.now)) :=
      h.enqueue j (endsAfter_setWidth (by decide) s.now a.waitLimit) hs
    unfold State.queued
    dsimp only
    split
    · exact h.resource _ _ _ (by rfl) joined
    · exact joined
  freeWaiter _ j o hs := h.freeWaiter j o hs
  online s r _ hs := h.resource s r _ (by rfl) hs
  offline s r hs := h.resource _ r _ (by rfl) (h.disarm _ _ (h.dropQueue r hs))
  drain s r _ hs := h.resource _ r _ (by rfl) (h.dropQueue r hs)
  unfence s r _ hs := h.settleOrIdle r hs
  unmark s r hs := h.resource s r _ (by rfl) hs

/-- Every expiry keeps the property; a WARN and a SLICE expiry set a deadline counted from the due tick (R41, R90). -/
theorem act {e : Entry} (he : e.due ∈ anchors) (hs : P s) : P (e.purpose.act e s) := by
  cases hp : e.purpose <;> dsimp only [Purpose.act]
  case warn =>
    unfold warnAct
    split
    · exact hs
    · rename_i i l _
      exact h.rearmed (s := s.setBox l.holder _) i
        (l := { l with phase := .expire, deadline := e.due + (s.resource l.resource).config.warnLead.setWidth 32 })
        ⟨e.due, he, (endsAfter_setWidth le_rfl _ _).mono False.elim⟩ (h.box s _ _ (.warn _ _ _) hs)
  case expire => unfold expireAct; split; exacts [hs, h.run _ hs]
  case slice =>
    unfold sliceAct
    split
    · exact hs
    · rename_i i l _
      dsimp only
      split_ifs
      · exact h.rearmed i ⟨e.due, he, (endsAfter_slice _ l.trim e.due).mono False.elim⟩ hs
      · exact h.run _ hs
  case grace => unfold graceAct; split; exacts [hs, h.run _ hs]
  case wait =>
    unfold waitAct
    split
    · exact hs
    · exact h.run _ (h.freeWaiter _ _ (h.giveBack _ 1 (h.post _ _ hs)))
  case settle =>
    unfold settleAct
    split
    · exact hs
    · exact h.run _ (h.resource s _ _ (by rfl) hs)

end KeptByEvents

end Sys2Proof.Machine
end

section
/-! The deadline list stays in due order (R97, R100 to R103). -/

namespace Sys2Proof.Machine

/-- The counter stands at `now`, and the deadline list is in due order in the half of the tick range that begins at `base`. -/
def State.Ordered (base now : Tick) (s : State) : Prop := s.now = now ∧ InDueOrder base s.deadlines.entries

theorem keptByEvents_ordered {base now : Tick} {anchors : List Tick} (hn : now ∈ anchors)
    (room : ∀ a ∈ anchors, (a - base).toNat + 65536 < 2 ^ 31) : KeptByEvents anchors (State.Ordered base now) where
  now _ hs := hs.1 ▸ hn
  resource _ _ _ _ hs := hs
  configure _ _ _ _ hs := hs
  lease _ _ _ hs := hs
  waiter _ _ _ hs := hs
  session _ _ _ _ _ hs := hs
  box _ _ _ _ hs := hs
  threshold _ _ _ _ _ _ _ hs := hs
  rights _ _ _ _ hs := hs
  timeBase _ _ _ _ hs := hs
  arm _ _ := fun ⟨a, ha, he⟩ hs => ⟨hs.1, (hs.2.dropOwner _).insertEntry (he.in_half (room a ha))⟩
  disarm _ _ hs := ⟨hs.1, hs.2.dropOwner _⟩
  gate _ _ hs := hs

/-- A delivery takes the head out of the list at most. -/
theorem State.deliver_entries_sublist (s : State) : s.deliver.deadlines.entries.Sublist s.deadlines.entries := by
  rcases s.deliver_cases with e | ⟨x, rest, hd, -, e⟩
  · rw [e]
  · rw [e, hd]
    exact List.sublist_cons_self x rest

theorem State.testHead_entries_sublist (s t : State) :
    (s.testHead t).deadlines.entries.Sublist t.deadlines.entries := by
  rcases s.testHead_cases t with e | e
  · rw [e]
  · rw [e]
    exact t.deliver_entries_sublist

/-- Every command keeps the list in due order and in its half of the tick range. -/
theorem exec_keeps_order {s t : State} {base : Tick} {c : Instr} (hs : InDueOrder base s.deadlines.entries)
    (room : (s.now - base).toNat + 65536 < 2 ^ 31)
    (owed : ∀ e ∈ s.deadlines.owed, (e.due - base).toNat + 65536 < 2 ^ 31) (he : exec c s = .next t) :
    InDueOrder base t.deadlines.entries := by
  by_cases hc : c = .deviceReset
  · subst hc
    rw [← Host.Outcome.next.inj he]
    exact ⟨.nil, nofun⟩
  have entries : ∀ {u : State}, t.records = u.records → t.deadlines.entries = u.deadlines.entries :=
    fun e => congrArg (fun records => records.2.1.entries) e
  have events : EventSteps fun _ => State.Ordered base s.now :=
    (keptByEvents_ordered (anchors := [s.now]) (by simp) (by simpa using room)).steps
  rcases exec_records_cases hc he with ⟨p, b, -, e⟩ | e | e | ⟨k, p, params, e⟩ | ⟨x, hx, e⟩ | ⟨p, e⟩ <;> rw [entries e]
  · exact hs
  · exact hs.sublist (s.setTimeBase s.timeBase.tick).deliver_entries_sublist
  · exact hs.sublist s.deliver_entries_sublist
  · have ordered := events.body k p params (s := s.beginEvent) ⟨rfl, hs⟩
    exact ordered.2.sublist (s.testHead_entries_sublist _)
  · have expiries := keptByEvents_ordered (base := base) (now := s.now) (anchors := [s.now, x.due]) (by simp)
      (by simpa using ⟨room, owed x hx⟩)
    have ordered := expiries.act (e := x) (by simp) (s := s.expiryTaken) ⟨rfl, hs⟩
    exact ordered.2.sublist (State.deliver_entries_sublist _)
  · have ordered := events.endSession p .tornDown .tornDown .portReset (s := s.beginEvent) ⟨rfl, hs⟩
    exact ordered.2.sublist (s.testHead_entries_sublist _)

/-- A cycle of REFCLK delivers an entry at most. -/
theorem State.refclk_entries_sublist (s : State) : s.refclk.deadlines.entries.Sublist s.deadlines.entries := by
  unfold State.refclk
  split_ifs
  · exact List.Sublist.refl _
  · exact List.Sublist.refl _
  · exact (s.setTimeBase s.timeBase.tick).deliver_entries_sublist

/-- Settles O41: an arm command puts the new entry between those due no later and those due later, and every deadline that
a command sets is at most the longest interval behind the taken tick or behind the due tick of the expiry taken. -/
theorem deadlineListStaysInDueOrder : Obligations.DeadlineListStaysInDueOrder := by
  refine ⟨arm_and_disarm_keep_order, fun s t base order ⟨half, room, owed⟩ hstep => ?_⟩
  have hs : InDueOrder base s.deadlines.entries := ⟨order, half⟩
  suffices ht : InDueOrder base t.deadlines.entries from ⟨ht.order, ht.half⟩
  unfold step at hstep
  split at hstep
  · rw [← Host.Outcome.next.inj hstep]
    exact hs.sublist s.refclk_entries_sublist
  · rename_i c rest _
    exact exec_keeps_order (s := { s with pending := rest }) hs room owed hstep

end Sys2Proof.Machine
end

section
/-! The request buffer of a port (R146, R147, R152, R153): its items stay in order and within its room. -/

namespace Sys2Proof.Machine

/-- A request buffer within its room, its answers in front, then the requests in service, then the pending ones. -/
structure Port.Sound (x : Port) : Prop where
  room : x.buffer.length ≤ Config.bufferItems
  order : x.buffer.Pairwise fun a b => a.rank ≤ b.rank

/-! ### One item of the buffer moves on -/

@[simp] theorem Item.rank_answer (seq : Byte) (frame : List Byte) : (Item.answer seq frame).rank = 0 := rfl
@[simp] theorem Item.rank_inService (q : Request) : (Item.request q true).rank = 1 := rfl
@[simp] theorem Item.rank_pending (q : Request) : (Item.request q false).rank = 2 := rfl

/-- The oldest pending request, with no pending one in front of it, goes into service. -/
theorem nextPending_split {items items' : List Item} {q : Request} (h : nextPending items = some (q, items')) :
    ∃ front back, items = front ++ .request q false :: back ∧ items' = front ++ .request q true :: back ∧
      ∀ x ∈ front, x.rank ≠ 2 := by
  induction items generalizing items' with
  | nil => cases h
  | cons x items ih =>
    have behind : ∀ {rest}, x.rank ≠ 2 → nextPending items = some (q, rest) → items' = x :: rest →
        ∃ front back, x :: items = front ++ .request q false :: back ∧ items' = front ++ .request q true :: back ∧
          ∀ y ∈ front, y.rank ≠ 2 := by
      rintro rest hx hn rfl
      obtain ⟨front, back, rfl, rfl, passed⟩ := ih hn
      exact ⟨x :: front, back, rfl, rfl, List.forall_mem_cons.2 ⟨hx, passed⟩⟩
    cases x with
    | answer seq frame =>
      obtain ⟨⟨q', rest⟩, hn, e⟩ := Option.map_eq_some_iff.1 h
      cases e
      exact behind (by simp) hn rfl
    | request q' inService =>
      cases inService with
      | true =>
        obtain ⟨⟨q', rest⟩, hn, e⟩ := Option.map_eq_some_iff.1 h
        cases e
        exact behind (by simp) hn rfl
      | false =>
        cases h
        exact ⟨[], items, rfl, rfl, nofun⟩

/-- The oldest request in service, with none in service in front of it, becomes an answer; without one nothing changes. -/
theorem placeInBuffer_split (seq : Byte) (frame : List Byte) (items : List Item) :
    placeInBuffer seq frame items = items ∨ ∃ q front back, items = front ++ .request q true :: back ∧
      placeInBuffer seq frame items = front ++ .answer seq frame :: back ∧ ∀ x ∈ front, x.rank ≠ 1 := by
  induction items with
  | nil => exact .inl rfl
  | cons x items ih =>
    have behind : x.rank ≠ 1 → placeInBuffer seq frame (x :: items) = x :: placeInBuffer seq frame items →
        placeInBuffer seq frame (x :: items) = x :: items ∨ ∃ q front back, x :: items = front ++ .request q true :: back ∧
          placeInBuffer seq frame (x :: items) = front ++ .answer seq frame :: back ∧ ∀ y ∈ front, y.rank ≠ 1 := by
      intro hx e
      rcases ih with same | ⟨q, front, back, split, placed, passed⟩
      · exact .inl (e.trans (congrArg (x :: ·) same))
      · exact .inr ⟨q, x :: front, back, congrArg (x :: ·) split, e.trans (congrArg (x :: ·) placed),
          List.forall_mem_cons.2 ⟨hx, passed⟩⟩
    cases x with
    | answer n f => exact behind (by simp) rfl
    | request q inService =>
      cases inService with
      | true => exact .inr ⟨q, [], items, rfl, rfl, nofun⟩
      | false => exact behind (by simp) rfl

theorem Item.rank_le_two (x : Item) : x.rank ≤ 2 := by
  rcases x with ⟨_, _ | _⟩ | ⟨_, _⟩ <;> simp

/-- An item may move on to the rank below its own where none in front of it has its rank. -/
theorem order_of_moved {front back : List Item} {x y : Item}
    (h : (front ++ x :: back).Pairwise fun a b => a.rank ≤ b.rank) (hy : x.rank = y.rank + 1)
    (passed : ∀ z ∈ front, z.rank ≠ x.rank) : (front ++ y :: back).Pairwise fun a b => a.rank ≤ b.rank := by
  obtain ⟨before, after, cross⟩ := List.pairwise_append.1 h
  obtain ⟨first, rest⟩ := List.pairwise_cons.1 after
  refine List.pairwise_append.2 ⟨before, List.pairwise_cons.2 ⟨fun z hz => ?_, rest⟩, fun z hz w hw => ?_⟩
  · have := first z hz
    omega
  · rcases List.mem_cons.1 hw with rfl | hw
    · have := cross z hz x (by simp)
      have := passed z hz
      omega
    · exact cross z hz w (by simp [hw])

/-! ### The port's operations -/

namespace Port.Sound

variable {x y : Port}

theorem of_buffer (h : x.Sound) (e : y.buffer = x.buffer) : y.Sound := ⟨e ▸ h.room, e ▸ h.order⟩

theorem of_empty (e : x.buffer = []) : x.Sound := ⟨by simp [e], by simp [e]⟩

/-- The port makes its next offer (R152). -/
theorem makeOffer (h : x.Sound) : x.makeOffer.Sound := by
  unfold Port.makeOffer
  split
  · exact h
  · split
    · exact h.of_buffer rfl
    · split
      · exact h
      · rename_i q items hn
        obtain ⟨front, back, split, rfl, passed⟩ := nextPending_split hn
        have room := h.room
        have order := h.order
        rw [split] at room order
        exact ⟨by simpa using room, order_of_moved order rfl passed⟩

theorem offerTaken (h : x.Sound) : x.offerTaken.Sound := (h.of_buffer (y := { x with offer := none }) rfl).makeOffer

/-- A good frame joins a buffer that is not full, behind all others (R147, R151). -/
theorem judgeFrame (h : x.Sound) (q : Request) (check : Byte) : (x.judgeFrame q check).Sound := by
  unfold Port.judgeFrame
  split_ifs with bad full
  · exact h.of_buffer rfl
  · exact h
  · have notFull : x.buffer.length < Config.bufferItems := by simpa [Port.full] using full
    refine makeOffer ⟨by simpa using notFull, List.pairwise_append.2 ⟨h.order, List.pairwise_singleton _ _, ?_⟩⟩
    intro a _ b hb
    rw [List.mem_singleton.1 hb]
    exact a.rank_le_two

theorem putFrame (h : x.Sound) (frame : List Byte) : (x.putFrame frame).Sound := by
  unfold Port.putFrame
  split
  · split_ifs
    · exact h.of_buffer rfl
    · exact h.of_buffer rfl
    · exact h.judgeFrame _ _
  · exact h.of_buffer rfl

/-- An acknowledge takes the head answer at most (R155). -/
theorem acknowledge (h : x.Sound) (seq : Byte) : (x.acknowledge seq).Sound := by
  unfold Port.acknowledge
  split
  · rename_i hb
    have room := h.room
    have order := h.order
    rw [hb] at room order
    split
    · exact ⟨Nat.le_of_succ_le room, (List.pairwise_cons.1 order).2⟩
    · exact h
  · exact h

/-- An answer takes the place of the oldest request in service (R153). -/
theorem placeAnswer (h : x.Sound) : x.placeAnswer.Sound := by
  unfold Port.placeAnswer
  split
  · exact h
  · rename_i a rest _
    unfold Port.receive
    split
    · rcases placeInBuffer_split x.answerSeq (a.frame x.answerSeq) x.buffer with same | ⟨q, front, back, split, placed, passed⟩
      · exact h.of_buffer same
      · have room := h.room
        have order := h.order
        rw [split] at room order
        refine ⟨le_of_eq_of_le (congrArg List.length placed) (by simpa using room), ?_⟩
        exact (congrArg (List.Pairwise _) placed).mpr (order_of_moved order rfl passed)
    · exact h.of_buffer rfl

theorem resetPort (x : Port) : x.resetPort.Sound := makeOffer (of_empty rfl)

theorem leaveReset (h : x.Sound) : x.leaveReset.Sound := by
  unfold Port.leaveReset
  split
  · exact resetPort x
  · exact h

theorem discardStale (h : x.Sound) : x.discardStale.Sound := by
  unfold Port.discardStale
  split
  · exact h.of_buffer rfl
  · split
    · split
      · exact h
      · exact h.offerTaken
    · exact h

theorem teardownTaken (h : x.Sound) : x.teardownTaken.Sound :=
  (h.of_buffer (y := { x with owedTeardowns := x.owedTeardowns - 1, withdrawn := none }) rfl).offerTaken

end Port.Sound

/-! ### The commands -/

/-- Every port's request buffer is in order and within its room. -/
def State.PortsSound (s : State) : Prop := ∀ p, (s.port p).Sound

namespace State.PortsSound

variable {s t : State}

theorem of_ports (h : s.PortsSound) (e : t.ports = s.ports) : t.PortsSound :=
  fun p => (h p).of_buffer (congrArg (fun ports => ports[p].buffer) e)

theorem setPort (h : s.PortsSound) {p : Client} {x : Port} (hx : x.Sound) : (s.setPort p x).PortsSound := by
  intro d
  rw [State.setPort_port]
  split
  · exact hx
  · exact h d

theorem answer (h : s.PortsSound) (p : Client) (q : Request) (a : Reply) : (s.answer p q a).PortsSound :=
  h.setPort (Port.Sound.offerTaken (Port.Sound.of_buffer (x := s.port p) (h p) (by rfl)))

theorem transact (h : s.PortsSound) (p : Client) (received : List Byte) : (s.transact p received).PortsSound := by
  have record : ∀ {u : State} out, u.PortsSound → (u.recordOut p out).PortsSound :=
    fun out hu => hu.setPort ((hu p).of_buffer rfl)
  have linkError : (s.linkError p).PortsSound := h.setPort ((h p).of_buffer rfl)
  have take : ∀ answers received, (s.take p answers received).state.PortsSound := by
    intro answers received
    unfold State.take
    split
    · exact h
    · split
      · exact linkError
      · split
        · exact h
        · split
          · refine h.setPort ?_
            split
            · exact (h p).acknowledge _
            · exact h p
          · exact h.of_ports rfl
  have selected : ∀ selector received, (s.selected p selector received).state.PortsSound := by
    intro selector received
    unfold State.selected
    split_ifs
    · exact h.setPort ((h p).putFrame received)
    · exact take _ _
    · exact take _ _
    · exact h
  unfold State.transact
  split
  · exact record _ h
  · split
    · exact record _ h
    · exact record _ (selected _ _)

end State.PortsSound

@[simp] theorem State.endEvent_ports (s : State) : s.endEvent.ports = s.ports := rfl

/-- No expiry reaches a port. -/
theorem act_ports (e : Entry) (s : State) : (e.purpose.act e s).ports = s.ports := by
  have kept : KeptByEvents [s.now, e.due] fun u => u.now = s.now ∧ u.ports = s.ports := by
    constructor
    case now => exact fun u hu => by simp [hu.1]
    all_goals intros; assumption
  exact (kept.act (by simp) ⟨rfl, rfl⟩).2

/-- Every command keeps the request buffers in order and within their room. -/
theorem exec_keeps_portsSound {s t : State} {c : Instr} (hs : s.PortsSound) (he : exec c s = .next t) : t.PortsSound := by
  have next : ∀ {u : State}, (.next u : Host.Outcome State Fault Refusal) = .next t → u.PortsSound → t.PortsSound :=
    fun e hu => Host.Outcome.next.inj e ▸ hu
  have same : ∀ {u : State}, (.next u : Host.Outcome State Fault Refusal) = .next t → u.ports = s.ports → t.PortsSound :=
    fun e hu => next e (hs.of_ports hu)
  have answer : ∀ {u : State}, u.ports = s.ports → ∀ p q a, (u.answer p q a).PortsSound :=
    fun hu p q a => (hs.of_ports hu).answer p q a
  induction c using command_cases with
  | kinds k p =>
    rw [exec_kind] at he
    have ports : ∀ params, (k.body p params s.beginEvent).2.ports = s.ports :=
      fun params => keptByRequests_ports.body k p params s.beginEvent
    rcases s.serve_cases p k (k.body p) with ⟨e, -⟩ | ⟨q, -, -, ⟨status, -, e⟩ | ⟨-, e⟩⟩ <;> rw [e] at he
    · exact same he rfl
    · exact next he (answer (u := s.beginEvent.endEvent) rfl p q _)
    · have decided : (s.testHead (k.body p q.params s.beginEvent).2.endEvent).ports = s.ports :=
        ((State.testHead_ports _ _).trans (State.endEvent_ports _)).trans (ports q.params)
      exact next he (answer decided p q _)
  | expiries u =>
    rw [exec_purpose, State.takeExpiry] at he
    split at he
    · exact same he rfl
    · rename_i e _
      split_ifs at he with hu
      · subst hu
        exact same he (act_ports e s.expiryTaken)
      · exact same he rfl
  | teardownClaim p =>
    simp only [exec, execTeardownClaim] at he
    split at he
    · have torn : (s.beginEvent.teardown p .portReset).1.ports = s.ports :=
        keptByRequests_ports.endSession s.beginEvent p .tornDown .tornDown .portReset
      have ports : (s.takeTeardown p).ports = s.ports := by
        rw [State.takeTeardown, State.testHead_ports, State.endEvent_ports]
        split
        · exact torn
        · rfl
      have taken := hs.of_ports ports
      exact next he (taken.setPort (taken p).teardownTaken)
    · exact same he rfl
  | unknownKind p =>
    simp only [exec, execUnknownKind] at he
    split at he
    · exact same he rfl
    · split at he
      · exact next he (answer (u := s.beginEvent.endEvent) rfl p _ _)
      · exact same he rfl
  | tick => exact same he (by split <;> rfl)
  | expiryDelivery => exact same he rfl
  | discardedUnserved p => exact next he (hs.setPort (hs p).discardStale)
  | put p frame => exact next he (hs.transact p _)
  | takeAnswer p flag seq more => exact next he (hs.transact p _)
  | takeNotice p flag seq more => exact next he (hs.transact p _)
  | status p more => exact next he (hs.transact p _)
  | unknownTransaction p selector more => exact next he (hs.transact p _)
  | cutTransaction p received => exact next he (hs.transact p _)
  | placeAnswer p => exact next he (hs.setPort (hs p).placeAnswer)
  | portReset p =>
    have asserted : (s.setPclr p true).PortsSound := hs.setPort ((hs p).of_buffer rfl)
    simp only [exec, execPortReset] at he
    split at he
    · exact next he asserted
    · exact next he (asserted.setPort (Port.Sound.resetPort _))
  | pclrDeasserted p => exact next he (hs.setPort ((hs p).of_buffer rfl))
  | deviceReset =>
    refine next he fun p => ?_
    have port := afterReset_port s p
    exact Port.Sound.of_empty (congrArg Port.buffer port)
  | resetDeasserted =>
    simp only [exec, execResetDeasserted] at he
    split at he
    · refine next he fun p => (hs p).leaveReset.of_buffer ?_
      exact congrArg Port.buffer (Vector.getElem_map Port.leaveReset p.isLt)
    · exact same he rfl

end Sys2Proof.Machine
end

section
/-!
The laws of the single blocks (R95, R103, R108, R126, R140, R141, R147): those of the records are kept by every write of an
event, the delivery law by the test behind it, the request buffers' by every operation of a port.
-/

namespace Sys2Proof.Machine

/-! ### The laws that the records keep by themselves -/

theorem attentionDue_iff {queue : List Notice} {threshold : Fin 8} :
    attentionDue queue threshold = true ↔ ∃ n ∈ queue, threshold.val < n.body.level := by
  simp [attentionDue]

theorem NoticeBox.settled_iff {b : NoticeBox} :
    b.Settled ↔ (b.attention = true ↔ ∃ n ∈ b.queue, b.threshold.val < n.body.level) := by
  rw [← attentionDue_iff]
  exact Bool.eq_iff_iff

/-- The laws of the time base, the rights, the notice boxes and the configurations. -/
structure State.BlocksSound (s : State) : Prop where
  timeBase : s.TimeBaseLaw
  admin : s.AdminLaw
  attention : ∀ c, (s.box c).Settled
  threshold : s.ThresholdLaw
  config : s.ConfigLaw

namespace State.BlocksSound

variable {s t : State}

theorem of_records (h : s.BlocksSound) (e : t.records = s.records) : t.BlocksSound := by
  obtain ⟨h1, h2, h3, h4, h5⟩ := h
  cases s; cases t
  simp only [State.records, Prod.mk.injEq] at e
  obtain ⟨rfl, rfl, rfl, rfl, rfl, rfl, rfl⟩ := e
  exact ⟨h1, h2, h3, h4, h5⟩

theorem setTimeBase (h : s.BlocksSound) {x : TimeBase} (h1 : 1 ≤ x.divisor) (h2 : x.divisor ≤ Config.maxDivisor)
    (h3 : x.prescaler < x.divisor) : (s.setTimeBase x).BlocksSound := { h with timeBase := ⟨h1, h2, h3⟩ }

theorem setResource (h : s.BlocksSound) (r : ResourceId) {x : Resource} (hx : x.config.inRange = true) :
    (s.setResource r x).BlocksSound where
  __ := h
  config k := by
    rw [State.setResource_resource]
    split
    · exact hx
    · exact h.config k

/-- An admin stays where each client that loses the right leaves another one. -/
theorem adminLaw_setSession (h : s.AdminLaw) {c : Client} {x : Session}
    (hx : x.admin = true ∨ (s.session c).admin = false ∨ s.onlyAdmin c = false) : (s.setSession c x).AdminLaw := by
  have other : ∀ d, d ≠ c → (s.session d).admin = true → (s.setSession c x).AdminLaw :=
    fun d hd ha => ⟨d, by rw [State.setSession_session, if_neg hd]; exact ha⟩
  rcases hx with hx | hx | hx
  · exact ⟨c, by rw [State.setSession_session_self]; exact hx⟩
  · obtain ⟨d, hd⟩ := h
    exact other d (by rintro rfl; rw [hx] at hd; cases hd) hd
  · simp only [State.onlyAdmin, List.all_eq_false, Bool.or_eq_true, decide_eq_true_eq, Bool.not_eq_true',
      not_or, Bool.not_eq_false] at hx
    obtain ⟨d, -, hd, ha⟩ := hx
    exact other d hd ha

theorem thresholdLaw_write (h : s.ThresholdLaw) {c : Client} {x : Session} {b : NoticeBox} (hb : b.threshold = x.threshold) :
    ((s.setSession c x).setBox c b).ThresholdLaw := by
  intro d
  rw [State.setBox_box, State.setBox_session, State.setSession_session]
  split
  · exact hb
  · exact h d

theorem settled_setBox (h : ∀ c, (s.box c).Settled) {c : Client} {b : NoticeBox} (hb : b.Settled) (d : Client) :
    ((s.setBox c b).box d).Settled := by
  rw [State.setBox_box]
  split
  · exact hb
  · exact h d

theorem setBox (h : s.BlocksSound) {c : Client} {b : NoticeBox} (hb : (s.box c).StepsTo b) : (s.setBox c b).BlocksSound where
  __ := h
  attention := settled_setBox h.attention (hb.settled (h.attention c))
  threshold d := by
    rw [State.setBox_box]
    split
    · rename_i same
      exact hb.threshold.trans (same ▸ h.threshold c)
    · exact h.threshold d

theorem setSession (h : s.BlocksSound) {c : Client} {x : Session} (ht : x.threshold = (s.session c).threshold)
    (ha : x.admin = true ∨ (s.session c).admin = false ∨ s.onlyAdmin c = false) : (s.setSession c x).BlocksSound where
  __ := h
  admin := adminLaw_setSession h.admin ha
  threshold d := by
    rw [State.setSession_session]
    split
    · rename_i same
      exact same ▸ (h.threshold c).trans ht.symm
    · exact h.threshold d

theorem setThreshold (h : s.BlocksSound) {c : Client} {x : Session} {b : NoticeBox}
    (ha : x.admin = true ∨ (s.session c).admin = false ∨ s.onlyAdmin c = false) (hb : b.Settled)
    (ht : b.threshold = x.threshold) : ((s.setSession c x).setBox c b).BlocksSound where
  timeBase := h.timeBase
  admin := adminLaw_setSession h.admin ha
  attention := settled_setBox (s := s.setSession c x) h.attention hb
  threshold := thresholdLaw_write h.threshold ht
  config := h.config

end State.BlocksSound

/-- The laws of the blocks through the writes of an event, in which the counter and the delivery place stand as they are. -/
def State.BlocksHold (now : Tick) (owed : Option Entry) (s : State) : Prop :=
  s.BlocksSound ∧ s.now = now ∧ s.deadlines.owed = owed

theorem keptByEvents_blocksHold {now : Tick} {owed : Option Entry} {anchors : List Tick} (hn : now ∈ anchors) :
    KeptByEvents anchors (State.BlocksHold now owed) where
  now _ hs := hs.2.1 ▸ hn
  resource s r x hx hs := ⟨hs.1.setResource r (hx ▸ hs.1.config r), hs.2⟩
  configure _ r _ hc hs := ⟨hs.1.setResource r hc, hs.2⟩
  lease _ _ _ hs := ⟨{ hs.1 with }, hs.2⟩
  waiter _ _ _ hs := ⟨{ hs.1 with }, hs.2⟩
  session s c x ha ht hs := by
    refine ⟨hs.1.setSession ht ?_, hs.2⟩
    cases hc : (s.session c).admin
    · exact .inr (.inl rfl)
    · exact .inl (ha.trans hc)
  box _ _ _ hb hs := ⟨hs.1.setBox hb, hs.2⟩
  threshold s c x b ha hb ht hs := by
    refine ⟨hs.1.setThreshold ?_ hb ht, hs.2⟩
    cases hc : (s.session c).admin
    · exact .inr (.inl rfl)
    · exact .inl (ha.trans hc)
  rights s c v hv hs := by
    refine ⟨hs.1.setSession (by rfl) ?_, hs.2⟩
    cases v
    · simpa [Classical.or_iff_not_imp_left] using hv
    · exact .inl rfl
  timeBase _ d h1 h2 hs := ⟨hs.1.setTimeBase h1 h2 (by exact h1), hs.2⟩
  arm _ _ _ hs := ⟨{ hs.1 with }, hs.2⟩
  disarm _ _ hs := ⟨{ hs.1 with }, hs.2⟩
  gate _ _ hs := ⟨{ hs.1 with }, hs.2⟩

/-! ### The delivery law (R103) -/

/-- After a delivery test the head is not reached, or an expiry is owed. -/
theorem State.deliver_deliveryLaw (s : State) : s.deliver.DeliveryLaw := by
  intro ho e he
  rcases s.deliver_cases with same | ⟨x, rest, -, -, delivered⟩
  · rw [same] at ho he ⊢
    obtain ⟨rest, split⟩ := List.head?_eq_some_iff.1 he
    refine Bool.eq_false_iff.2 fun hr => ?_
    have delivered := congrArg (fun t : State => t.deadlines.owed) (State.deliver_of_reached split ho hr)
    rw [same] at delivered
    simp [ho] at delivered
  · rw [delivered] at ho
    cases ho

/-- The test for an event's arms and cancels restores the law, the counter and the delivery place being as they were. -/
theorem State.DeliveryLaw.testHead {s t : State} (h : s.DeliveryLaw) (hn : t.now = s.now)
    (ho : t.deadlines.owed = s.deadlines.owed) : (s.testHead t).DeliveryLaw := by
  unfold State.testHead
  split
  · rename_i head
    intro howed e he
    rw [hn]
    exact h (ho ▸ howed) e (head ▸ he)
  · exact t.deliver_deliveryLaw

theorem State.DeliveryLaw.of_records {s t : State} (h : s.DeliveryLaw) (e : t.records = s.records) : t.DeliveryLaw := by
  have time : t.timeBase = s.timeBase := congrArg (fun records => records.1) e
  have list : t.deadlines = s.deadlines := congrArg (fun records => records.2.1) e
  simpa only [State.DeliveryLaw, State.now, time, list] using h

/-! ### The commands -/

theorem State.BlocksSound.deliver {s : State} (h : s.BlocksSound) : s.deliver.BlocksSound := { h with }

theorem State.BlocksSound.testHead {s t : State} (h : t.BlocksSound) : (s.testHead t).BlocksSound := by
  rcases s.testHead_cases t with e | e <;> rw [e]
  · exact h
  · exact h.deliver

theorem State.BlocksSound.advance {s : State} (h : s.BlocksSound) : s.advance.BlocksSound :=
  (h.setTimeBase (x := s.timeBase.tick) h.timeBase.1 h.timeBase.2.1 h.timeBase.1).deliver

/-- Every command keeps the laws of the blocks but the ports'. -/
theorem exec_keeps_blocksSound {s t : State} {c : Instr} (hs : s.BlocksSound) (hd : s.DeliveryLaw)
    (he : exec c s = .next t) : t.BlocksSound ∧ t.DeliveryLaw := by
  by_cases hc : c = .deviceReset
  · subst hc
    have reset : s.afterReset.BlocksSound := State.BlocksSound.of_records (s := State.reset)
      ⟨reset_blockLaws.timeBase, reset_blockLaws.admin, fun c => NoticeBox.settled_iff.2 (reset_blockLaws.attention c),
        reset_blockLaws.threshold, reset_blockLaws.config⟩ rfl
    rw [← Host.Outcome.next.inj he]
    exact ⟨reset, State.DeliveryLaw.of_records (s := State.reset) reset_blockLaws.delivery rfl⟩
  have both : ∀ {u : State}, t.records = u.records → u.BlocksSound → u.DeliveryLaw → t.BlocksSound ∧ t.DeliveryLaw :=
    fun e h1 h2 => ⟨h1.of_records e, h2.of_records e⟩
  have events : EventSteps fun _ => State.BlocksHold s.now s.deadlines.owed :=
    (keptByEvents_blocksHold (anchors := [s.now]) (by simp)).steps
  have begins : s.beginEvent.BlocksHold s.now s.deadlines.owed := ⟨{ hs with }, rfl, rfl⟩
  rcases exec_records_cases hc he with ⟨p, b, hb, e⟩ | e | e | ⟨k, p, params, e⟩ | ⟨x, hx, e⟩ | ⟨p, e⟩
  · exact both e (hs.setBox hb) hd
  · exact both e hs.advance (s.setTimeBase s.timeBase.tick).deliver_deliveryLaw
  · exact both e hs.deliver s.deliver_deliveryLaw
  · obtain ⟨sound, now, owed⟩ := events.body k p params begins
    exact both e sound.testHead (hd.testHead now owed)
  · have expiries := keptByEvents_blocksHold (now := s.now) (owed := none) (anchors := [s.now, x.due]) (by simp)
    have taken : s.expiryTaken.BlocksHold s.now none := ⟨{ hs with }, rfl, rfl⟩
    obtain ⟨sound, -⟩ := expiries.act (e := x) (by simp) taken
    exact both e sound.deliver (State.deliver_deliveryLaw _)
  · obtain ⟨sound, now, owed⟩ := events.endSession p .tornDown .tornDown .portReset begins
    exact both e sound.testHead (hd.testHead now owed)

/-- One cycle of REFCLK keeps the laws of the blocks but the ports'. -/
theorem State.BlocksSound.refclk {s : State} (h : s.BlocksSound) (hd : s.DeliveryLaw) :
    s.refclk.BlocksSound ∧ s.refclk.DeliveryLaw := by
  unfold State.refclk
  split_ifs with held within
  · exact ⟨h, hd⟩
  · exact ⟨h.setTimeBase h.timeBase.1 h.timeBase.2.1 within, hd⟩
  · exact ⟨h.advance, (s.setTimeBase s.timeBase.tick).deliver_deliveryLaw⟩

theorem State.refclk_ports (s : State) : s.refclk.ports = s.ports := by
  unfold State.refclk
  split_ifs <;> rfl

theorem State.blockLaws_iff {s : State} : s.BlockLaws ↔ s.BlocksSound ∧ s.DeliveryLaw ∧ s.PortsSound :=
  ⟨fun h => ⟨⟨h.timeBase, h.admin, fun c => NoticeBox.settled_iff.2 (h.attention c), h.threshold, h.config⟩, h.delivery,
      fun p => ⟨h.buffer p, h.items p⟩⟩,
    fun ⟨h, hd, hp⟩ => ⟨h.timeBase, h.admin, fun c => NoticeBox.settled_iff.1 (h.attention c), h.threshold,
      fun p => (hp p).room, fun p => (hp p).order, hd, h.config⟩⟩

/-- ATTN_N is driven at its active level as the attention line and RESET_N say (R140, R163). -/
theorem State.BlockLaws.attnAsserted {s : State} (h : s.BlockLaws) (c : Client) : s.attnAsserted c = true ↔
    s.resetHeld = false ∧ ∃ n ∈ (s.box c).queue, (s.session c).threshold.val < n.body.level := by
  have line : s.attnAsserted c = (!s.resetHeld && (s.box c).attention) := rfl
  rw [line, Bool.and_eq_true, Bool.not_eq_true', h.attention c, h.threshold c]

/-- Settles O55. -/
theorem stepKeepsBlockLaws : Obligations.StepKeepsBlockLaws := by
  intro s t hs hstep
  obtain ⟨sound, delivery, ports⟩ := State.blockLaws_iff.1 hs
  suffices ht : t.BlockLaws from ⟨ht, ht.attnAsserted⟩
  unfold step at hstep
  split at hstep
  · rw [← Host.Outcome.next.inj hstep]
    obtain ⟨sound', delivery'⟩ := sound.refclk delivery
    exact State.blockLaws_iff.2 ⟨sound', delivery', ports.of_ports s.refclk_ports⟩
  · rename_i c rest _
    have begun : ({ s with pending := rest } : State).BlocksSound := sound.of_records rfl
    obtain ⟨sound', delivery'⟩ := exec_keeps_blocksSound begun delivery hstep
    exact State.blockLaws_iff.2 ⟨sound', delivery', exec_keeps_portsSound (s := { s with pending := rest }) (ports.of_ports rfl) hstep⟩

end Sys2Proof.Machine
end

section
/-!
The deadline list and its owners (R4, R74, R99): what each operation of the engine does to the entries, while some owners
may be without theirs.
-/

namespace Sys2Proof.Machine

/-! ### The entry of an owner (R99, R105) -/

/-- The entry that an expiry is as its owner has it in the list: a resource's carries no incarnation. -/
def Entry.asListed (e : Entry) : Entry :=
  match e.owner with
  | .resource _ => { e with incarnation := none }
  | _ => e

theorem Entry.asListed_due (e : Entry) : e.asListed.due = e.due := by
  unfold Entry.asListed
  split <;> rfl

theorem Entry.asListed_owner (e : Entry) : e.asListed.owner = e.owner := by
  unfold Entry.asListed
  split <;> rfl

section
variable {s t : State} {o : Owner} {e : Entry}

theorem State.owner_of_entryOf (h : s.entryOf o = some e) : e.owner = o := by
  cases o with
  | lease i => obtain ⟨l, -, rfl⟩ := Option.map_eq_some_iff.1 h; rfl
  | waiter j => obtain ⟨w, -, rfl⟩ := Option.map_eq_some_iff.1 h; rfl
  | resource r =>
    simp only [State.entryOf, Option.ite_none_right_eq_some] at h
    obtain ⟨d, -, rfl⟩ := Option.map_eq_some_iff.1 h.2
    rfl

theorem State.asListed_of_entryOf (h : s.entryOf o = some e) : e.asListed = e := by
  cases o with
  | lease i => obtain ⟨l, -, rfl⟩ := Option.map_eq_some_iff.1 h; rfl
  | waiter j => obtain ⟨w, -, rfl⟩ := Option.map_eq_some_iff.1 h; rfl
  | resource r =>
    simp only [State.entryOf, Option.ite_none_right_eq_some] at h
    obtain ⟨d, -, rfl⟩ := Option.map_eq_some_iff.1 h.2
    rfl

/-- An expiry is current where it is the entry its owner has. -/
theorem State.current_iff : s.Current e ↔ s.entryOf e.owner = some e.asListed := by
  obtain ⟨o, incarnation, purpose, due⟩ := e
  cases o with
  | lease i => simp [State.Current, State.entryOf, Entry.asListed, eq_comm]
  | waiter j => simp [State.Current, State.entryOf, Entry.asListed, eq_comm]; tauto
  | resource r => simp [State.Current, State.entryOf, Entry.asListed, eq_comm]; tauto

/-- The entry of a lease, of a waiter, of a resource is what its record says. -/
theorem State.entryOf_lease_congr {i : LeaseSlot} (h : t.leaseRecord i = s.leaseRecord i) :
    t.entryOf (.lease i) = s.entryOf (.lease i) := by
  simp only [State.entryOf, State.lease, h]

theorem State.entryOf_waiter_congr {j : WaiterSlot} (h : t.waiterRecord j = s.waiterRecord j) :
    t.entryOf (.waiter j) = s.entryOf (.waiter j) := by
  simp only [State.entryOf, State.waiter, h]

theorem State.entryOf_resource_congr {r : ResourceId} (h1 : (t.resource r).state = (s.resource r).state)
    (h2 : (t.resource r).settleDeadline = (s.resource r).settleDeadline) :
    t.entryOf (.resource r) = s.entryOf (.resource r) := by
  simp only [State.entryOf, h1, h2]

theorem State.entryOf_setLeaseRecord_of_ne (s : State) {i : LeaseSlot} {x : LeaseRecord} (h : o ≠ .lease i) :
    (s.setLeaseRecord i x).entryOf o = s.entryOf o := by
  cases o with
  | lease k => exact State.entryOf_lease_congr (State.setLeaseRecord_leaseRecord_of_ne s i k x fun e => h (by rw [e]))
  | waiter j => rfl
  | resource r => rfl

theorem State.entryOf_setWaiterRecord_of_ne (s : State) {j : WaiterSlot} {x : WaiterRecord} (h : o ≠ .waiter j) :
    (s.setWaiterRecord j x).entryOf o = s.entryOf o := by
  cases o with
  | lease i => rfl
  | waiter k => exact State.entryOf_waiter_congr (State.setWaiterRecord_waiterRecord_of_ne s j k x fun e => h (by rw [e]))
  | resource r => rfl

theorem State.entryOf_setResource_of_ne (s : State) {r : ResourceId} {x : Resource} (h : o ≠ .resource r) :
    (s.setResource r x).entryOf o = s.entryOf o := by
  cases o with
  | lease i => rfl
  | waiter j => rfl
  | resource k =>
    have record := State.setResource_resource_of_ne s r k x fun e => h (by rw [e])
    exact State.entryOf_resource_congr (congrArg Resource.state record) (congrArg Resource.settleDeadline record)

theorem State.entryOf_setResource_same (s : State) {r : ResourceId} {x : Resource} (h1 : x.state = (s.resource r).state)
    (h2 : x.settleDeadline = (s.resource r).settleDeadline) (o : Owner) : (s.setResource r x).entryOf o = s.entryOf o := by
  by_cases h : o = .resource r
  · subst h
    exact State.entryOf_resource_congr (by rw [State.setResource_resource_self, h1])
      (by rw [State.setResource_resource_self, h2])
  · exact s.entryOf_setResource_of_ne h

end

/-- Waiter slot `j` holds `w`, its entry not yet armed (R59). -/
def State.setWaiter (s : State) (j : WaiterSlot) (w : Waiter) : State :=
  s.setWaiterRecord j { s.waiterRecord j with waiter := some w }

/-! ### The list and the owners -/

/-- The list holds entries of the owners alone, one each, the owed expiry not among them; and every owner's, but for an owed
one and for the owners `spared`. -/
structure State.Listed (spared : Owner → Prop) (s : State) : Prop where
  named : ∀ e ∈ s.deadlines.entries, s.entryOf e.owner = some e
  listed : ∀ o e, s.entryOf o = some e → e ∈ s.deadlines.entries ∨ s.deadlines.owed = some e ∨ spared o
  oneEach : s.OneEntryEach
  apart : ∀ e, s.deadlines.owed = some e → e.asListed ∉ s.deadlines.entries

theorem mem_dropOwner {o : Owner} {e : Entry} {entries : List Entry} :
    e ∈ dropOwner o entries ↔ e ∈ entries ∧ e.owner ≠ o := by
  simp [dropOwner]

/-- One entry for each owner, after an arm. -/
theorem nodup_owners_arm {e : Entry} {entries : List Entry} (h : (entries.map Entry.owner).Nodup) :
    ((insertEntry e (dropOwner e.owner entries)).map Entry.owner).Nodup := by
  obtain ⟨ahead, behind, split, inserted, -⟩ := insertEntry_split e (dropOwner e.owner entries)
  have others : ((ahead ++ behind).map Entry.owner).Nodup := split ▸ h.sublist (List.filter_sublist.map _)
  have new : e.owner ∉ (ahead ++ behind).map Entry.owner := by
    rw [← split]
    rintro hm
    obtain ⟨x, hx, same⟩ := List.mem_map.1 hm
    exact (mem_dropOwner.1 hx).2 same
  rw [inserted, List.map_append, List.map_cons]
  rw [List.map_append] at others new
  exact (List.nodup_middle.2 (List.nodup_cons.2 ⟨new, others⟩))

namespace State.Listed

variable {spared spared' : Owner → Prop} {s t : State}

theorem mono (h : s.Listed spared) (hs : ∀ o e, s.entryOf o = some e → spared o → spared' o) : s.Listed spared' where
  __ := h
  listed o e he := (h.listed o e he).imp_right fun h => h.imp_right (hs o e he)

theorem weaken {p : Owner → Prop} (h : s.Listed fun o => spared o ∧ p o) : s.Listed spared := h.mono fun _ _ _ hs => hs.1

theorem of_same (h : s.Listed spared) (entry : ∀ o, t.entryOf o = s.entryOf o) (deadlines : t.deadlines = s.deadlines) :
    t.Listed spared := by
  obtain ⟨named, listed, oneEach, apart⟩ := h
  refine ⟨?_, ?_, ?_, ?_⟩
  · simpa only [entry, deadlines] using named
  · simpa only [entry, deadlines] using listed
  · simpa only [State.OneEntryEach, deadlines] using oneEach
  · simpa only [deadlines] using apart

/-- An owner has its new entry in the list: the arm command, with the write of the owner's record (R101). -/
theorem armed (h : s.Listed spared) {e : Entry} (self : t.entryOf e.owner = some e)
    (others : ∀ o, o ≠ e.owner → t.entryOf o = s.entryOf o) (deadlines : t.deadlines = (s.arm e).deadlines)
    (new : ∀ x, s.deadlines.owed = some x → x.asListed ≠ e) : t.Listed fun o => spared o ∧ o ≠ e.owner := by
  have owed : t.deadlines.owed = s.deadlines.owed := by rw [deadlines]; rfl
  have entries : t.deadlines.entries = insertEntry e (dropOwner e.owner s.deadlines.entries) := by
    rw [deadlines]; rfl
  have mem : ∀ x, x ∈ t.deadlines.entries ↔ x = e ∨ x ∈ s.deadlines.entries ∧ x.owner ≠ e.owner := by
    intro x
    rw [entries, mem_insertEntry, mem_dropOwner]
  refine ⟨fun x hx => ?_, fun o x hx => ?_, ?_, fun x hx hm => ?_⟩
  · rcases (mem x).1 hx with rfl | ⟨hx, other⟩
    · exact self
    · rw [others _ other]
      exact h.named x hx
  · by_cases ho : o = e.owner
    · subst ho
      exact .inl ((mem x).2 (.inl (Option.some.inj (hx.symm.trans self))))
    · rw [others o ho] at hx
      rw [owed]
      refine (h.listed o x hx).imp (fun hm => (mem x).2 (.inr ⟨hm, ?_⟩)) fun h => h.imp_right fun h => ⟨h, ho⟩
      rwa [State.owner_of_entryOf hx]
  · rw [State.OneEntryEach, entries]
    exact nodup_owners_arm h.oneEach
  · rw [owed] at hx
    rcases (mem _).1 hm with same | ⟨hm, -⟩
    · exact new x hx same
    · exact h.apart x hx hm

/-- An owner is gone, and its entry with it: the cancel command, with the write of the owner's record (R102). -/
theorem cleared (h : s.Listed spared) {o : Owner} (self : t.entryOf o = none)
    (others : ∀ k, k ≠ o → t.entryOf k = s.entryOf k) (deadlines : t.deadlines = (s.disarm o).deadlines) :
    t.Listed fun k => spared k ∧ k ≠ o := by
  have owed : t.deadlines.owed = s.deadlines.owed := by rw [deadlines]; rfl
  have entries : t.deadlines.entries = dropOwner o s.deadlines.entries := by rw [deadlines]; rfl
  refine ⟨fun x hx => ?_, fun k x hx => ?_, ?_, fun x hx hm => ?_⟩
  · obtain ⟨hx, other⟩ := mem_dropOwner.1 (entries ▸ hx)
    rw [others _ other]
    exact h.named x hx
  · have ho : k ≠ o := by rintro rfl; rw [self] at hx; cases hx
    rw [others k ho] at hx
    rw [owed, entries]
    refine (h.listed k x hx).imp (fun hm => mem_dropOwner.2 ⟨hm, ?_⟩) fun h => h.imp_right fun h => ⟨h, ho⟩
    rwa [State.owner_of_entryOf hx]
  · rw [State.OneEntryEach, entries]
    exact h.oneEach.sublist (List.filter_sublist.map _)
  · rw [owed] at hx
    exact h.apart x hx (mem_dropOwner.1 (entries ▸ hm)).1

/-- A cancel for an owner that has no entry changes nothing. -/
theorem disarm_of_absent {o : Owner} (h : s.entriesOf o = []) : (s.disarm o).deadlines = s.deadlines := by
  have kept : dropOwner o s.deadlines.entries = s.deadlines.entries := by
    rw [dropOwner, List.filter_eq_self]
    intro e he
    have := List.filter_eq_nil_iff.1 h e he
    simpa using this
  simp only [State.disarm, State.setDeadlines, kept]

theorem absent (h : s.Listed spared) {o : Owner} (ho : s.entryOf o = none) : s.entriesOf o = [] := by
  refine List.filter_eq_nil_iff.2 fun e he same => ?_
  have same : e.owner = o := by simpa using same
  have := h.named e he
  rw [same, ho] at this
  cases this

/-- The delivery test moves the reached head out of the list (R103). -/
theorem deliver (h : s.Listed spared) : s.deliver.Listed spared := by
  rcases s.deliver_cases with e | ⟨e, rest, list, -, delivered⟩
  · rwa [e]
  · have one : ((e :: rest).map Entry.owner).Nodup := by
      have := h.oneEach
      rwa [State.OneEntryEach, list] at this
    have named := h.named e (by simp [list])
    rw [delivered]
    refine ⟨fun x hx => h.named x ?_, fun o x hx => ?_, (List.nodup_cons.1 one).2, fun x hx hm => ?_⟩
    · rw [list]
      exact List.mem_cons_of_mem e hx
    · have := h.listed o x hx
      rw [list] at this
      rcases this with hm | none | hs
      · rcases List.mem_cons.1 hm with rfl | hm
        · exact .inr (.inl rfl)
        · exact .inl hm
      · cases none
      · exact .inr (.inr hs)
    · cases hx
      rw [State.asListed_of_entryOf named] at hm
      exact (List.nodup_cons.1 one).1 (List.mem_map_of_mem hm)

end State.Listed

/-! ### The deadlines in the records (R4, R74, R97) -/

/-- The list and its owners agree but for the owners `spared`, whose phases may be off as well; a settle deadline is present
exactly in SETTLING, the configurations are in range, and the owed expiry counts as reached. -/
structure State.Timed (spared : Owner → Prop) (s : State) : Prop extends s.Listed spared where
  phases : ∀ i l, s.lease i = some l → (l.state ≠ .active ↔ l.phase = .grace) ∨ spared (.lease i)
  settle : s.SettleLaw
  config : s.ConfigLaw
  reached : s.OwedReached

theorem State.SettleLaw.setResource {s : State} (h : s.SettleLaw) {r : ResourceId} {x : Resource}
    (hx : x.settleDeadline.isSome = true ↔ x.state = .settling) : (s.setResource r x).SettleLaw := by
  intro k
  rw [State.setResource_resource]
  split
  · exact hx
  · exact h k

theorem State.ConfigLaw.setResource {s : State} (h : s.ConfigLaw) {r : ResourceId} {x : Resource}
    (hx : x.config.inRange = true) : (s.setResource r x).ConfigLaw := by
  intro k
  rw [State.setResource_resource]
  split
  · exact hx
  · exact h k

namespace State.Timed

variable {spared spared' : Owner → Prop} {s t : State}

theorem mono (h : s.Timed spared) (hs : ∀ o e, s.entryOf o = some e → spared o → spared' o) : s.Timed spared' where
  __ := h
  toListed := h.toListed.mono hs
  phases i l hl := (h.phases i l hl).imp_right (hs _ _ (congrArg (Option.map _) hl))

theorem weaken {p : Owner → Prop} (h : s.Timed fun o => spared o ∧ p o) : s.Timed spared := h.mono fun _ _ _ hs => hs.1

/-- The owed expiry is not the entry of an interval that is still to come (R97). -/
theorem newEntry (h : s.Timed spared) {e : Entry} (he : s.deadlines.owed = none ∨ Machine.reached s.now e.due = false) :
    ∀ x, s.deadlines.owed = some x → x.asListed ≠ e := by
  rintro x hx rfl
  rw [x.asListed_due, h.reached x hx, hx] at he
  simp at he

/-! ### Writes that leave the deadlines as they are -/

theorem setResource (h : s.Timed spared) (r : ResourceId) {x : Resource} (state : x.state = (s.resource r).state)
    (deadline : x.settleDeadline = (s.resource r).settleDeadline) (config : x.config.inRange = true) :
    (s.setResource r x).Timed spared where
  toListed := h.toListed.of_same (s.entryOf_setResource_same state deadline) rfl
  phases := h.phases
  settle := h.settle.setResource (by rw [state, deadline]; exact h.settle r)
  config := h.config.setResource config
  reached := h.reached

theorem setSession (h : s.Timed spared) (c : Client) (x : Session) : (s.setSession c x).Timed spared := { h with }

theorem setBox (h : s.Timed spared) (c : Client) (b : NoticeBox) : (s.setBox c b).Timed spared := { h with }

theorem setGate (h : s.Timed spared) (g : Gate) : (s.setGate g).Timed spared := { h with }

/-- A lease is rewritten in place with its interval; where its phase is off afterwards, it is spared. -/
theorem setLease (h : s.Timed spared) {i : LeaseSlot} {l l' : Lease} (hl : s.lease i = some l) (phase : l'.phase = l.phase)
    (deadline : l'.deadline = l.deadline) (law : l'.state = l.state ∨ spared (.lease i)) :
    (s.setLease i l').Timed spared where
  toListed := by
    refine h.toListed.of_same (fun o => ?_) rfl
    by_cases ho : o = .lease i
    · subst ho
      simp [State.entryOf, hl, phase, deadline]
    · exact s.entryOf_setLeaseRecord_of_ne ho
  phases k x hx := by
    rw [State.setLease_lease] at hx
    split at hx
    · subst k
      cases hx
      rcases law with law | law
      · rw [phase, law]
        exact h.phases i l hl
      · exact .inr law
    · exact h.phases k x hx
  settle := h.settle
  config := h.config
  reached := h.reached

/-! ### Leases -/

/-- A lease gets a new interval, and its entry is armed (R26, R101). -/
theorem rearmed (h : s.Timed spared) (i : LeaseSlot) {l : Lease}
    (coming : s.deadlines.owed = none ∨ Machine.reached s.now l.deadline = false)
    (phase : l.state ≠ .active ↔ l.phase = .grace) : (s.rearmed i l).Timed fun o => spared o ∧ o ≠ .lease i where
  toListed := by
    refine h.toListed.armed (e := ⟨.lease i, some ((s.setLease i l).leaseRecord i).incarnation, l.phase.purpose, l.deadline⟩)
      ?_ (fun o ho => ?_) rfl (h.newEntry coming)
    · simp [State.entryOf, State.rearmed, State.armLease]
    · exact s.entryOf_setLeaseRecord_of_ne ho
  phases k x hx := by
    have hx : (s.setLease i l).lease k = some x := hx
    rw [State.setLease_lease] at hx
    split at hx
    · cases hx
      exact .inl phase
    · rename_i other
      exact (h.phases k x hx).imp_right fun hs => ⟨hs, by simpa using other⟩
  settle := h.settle
  config := h.config
  reached := h.reached

/-- A lease that has left its holder set is freed with its entry, and one that stands is left (R27). -/
theorem freeLease (h : s.Timed spared) (i : LeaseSlot) (cause : EndCause) : (s.freeLease i cause).Timed spared := by
  by_cases standing : ∀ l, s.lease i = some l → s.stands i l = true
  · rwa [State.freeLease_of_standing cause standing]
  · obtain ⟨l, hl, hs⟩ : ∃ l, s.lease i = some l ∧ s.stands i l = false := by simpa using standing
    rw [State.freeLease_eq cause hl hs]
    refine setSession (spared := spared) ?_ _ _
    refine
      { toListed := .weaken (h.toListed.cleared (o := .lease i) ?_ (fun o ho => ?_) rfl)
        phases := fun k x hx => ?_
        settle := h.settle
        config := h.config
        reached := h.reached }
    · simp [State.entryOf, State.setLeaseRecord_lease]
    · exact s.entryOf_setLeaseRecord_of_ne ho
    · rw [State.setLeaseRecord_lease] at hx
      split at hx
      · cases hx
      · exact h.phases k x hx

/-! ### Resources (R4, R10, R12) -/

/-- A resource that is not SETTLING, and has no entry, enters a state other than SETTLING. -/
theorem leaveSettling (h : s.Timed spared) (r : ResourceId) {x : Resource} (absent : s.entriesOf (.resource r) = [])
    (state : x.state ≠ .settling) (deadline : x.settleDeadline = none) (config : x.config.inRange = true) :
    (s.setResource r x).Timed fun o => spared o ∧ o ≠ .resource r where
  toListed := by
    refine h.toListed.cleared ?_ (fun o ho => s.entryOf_setResource_of_ne ho) (Listed.disarm_of_absent absent).symm
    simp [State.entryOf, state]
  phases i l hl := (h.phases i l hl).imp_right fun hs => ⟨hs, nofun⟩
  settle := h.settle.setResource (by simp [state, deadline])
  config := h.config.setResource config
  reached := h.reached

/-- Outside SETTLING a resource has neither a settle deadline nor an entry. -/
theorem not_settling (h : s.Timed spared) {r : ResourceId} (hr : (s.resource r).state ≠ .settling) :
    (s.resource r).settleDeadline = none ∧ s.entriesOf (.resource r) = [] := by
  refine ⟨?_, h.absent (by simp [State.entryOf, hr])⟩
  have := mt (h.settle r).1 hr
  simpa using this

/-- A resource goes from one state to another, neither of them SETTLING. -/
theorem setState (h : s.Timed spared) (r : ResourceId) {x : Resource} (before : (s.resource r).state ≠ .settling)
    (state : x.state ≠ .settling) (deadline : x.settleDeadline = (s.resource r).settleDeadline)
    (config : x.config = (s.resource r).config) : (s.setResource r x).Timed spared := by
  obtain ⟨none, absent⟩ := h.not_settling before
  exact (h.leaveSettling r absent state (deadline.trans none) (config ▸ h.config r)).weaken

/-- A resource enters SETTLING, its deadline still to come (R10, R21). -/
theorem enterSettling (h : s.Timed spared) (r : ResourceId) (settle : (s.resource r).config.settle ≠ 0) :
    (s.enterSettling r).Timed spared where
  toListed := by
    have coming := (endsAfter_setWidth (by decide) s.now (s.resource r).config.settle).not_reached settle
    refine .weaken (h.toListed.armed
      (e := ⟨.resource r, none, .settle, s.now + (s.resource r).config.settle.setWidth 32⟩) ?_ (fun o ho => ?_) rfl
      (h.newEntry (.inr coming)))
    · simp [State.entryOf, State.enterSettling]
    · exact s.entryOf_setResource_of_ne ho
  phases := h.phases
  settle := State.SettleLaw.setResource h.settle (by simp)
  config := State.ConfigLaw.setResource h.config (h.config r)
  reached := h.reached

theorem settleOrIdle (h : s.Timed spared) {r : ResourceId} (before : (s.resource r).state ≠ .settling) :
    (s.settleOrIdle r).1.Timed spared := by
  unfold State.settleOrIdle
  dsimp only
  split_ifs with settle
  · exact h.setState r before nofun rfl rfl
  · exact h.enterSettling r settle

/-- The resource's own step when a lease has left (R9 to R11). -/
theorem afterLeaseLeft (h : s.Timed spared) (r : ResourceId) (cause : EndCause) :
    (s.afterLeaseLeft r cause).1.Timed spared := by
  unfold State.afterLeaseLeft
  dsimp only
  split
  · rename_i held
    have before : (s.resource r).state ≠ .settling := by simp [held]
    split_ifs
    · exact h.setResource r (by rfl) (by rfl) (h.config r)
    · exact h.setState r before nofun rfl rfl
    · exact h.settleOrIdle before
  · rename_i draining
    split_ifs
    · exact h
    · exact h.setState r (by simp [draining]) nofun rfl rfl
  · exact h

/-! ### The beginning of a lease (R8, R35) -/

/-- A lease begins with its entry armed; an IDLE resource enters HELD. -/
theorem beginLease (h : s.Timed spared) (i : LeaseSlot) (r : ResourceId) (c : Client) (m : Mode) (u : Urgency)
    {iv : Interval} (coming : Machine.reached s.now iv.deadline = false) (phase : iv.phase ≠ .grace) :
    (s.beginLease i r c m u iv).Timed spared := by
  have armed : (s.rearmed i ⟨r, c, m, u, .active, iv.phase, iv.deadline, iv.trim⟩).Timed spared :=
    (h.rearmed i (.inr coming) (by simp [phase])).weaken
  refine setSession (setGate ?_ _) c _
  by_cases idle : (s.resource r).state = .idle
  · exact armed.setState r (by exact idle ▸ nofun) (by simp [State.armLease, idle]) rfl rfl
  · exact armed.setResource r (by simp [State.armLease, State.rearmed, idle]) (by rfl) (armed.config r)

/-! ### Waiters (R54, R56, R59) -/

/-- A waiter is freed with its entry (R56). -/
theorem freeWaiter (h : s.Timed spared) (j : WaiterSlot) (o : Outcome) :
    (s.freeWaiter j o).Timed fun k => spared k ∧ k ≠ .waiter j := by
  cases hw : s.waiter j with
  | none =>
    rw [State.freeWaiter_of_none hw]
    refine h.mono fun k e he hs => ⟨hs, ?_⟩
    rintro rfl
    simp [State.entryOf, hw] at he
  | some w =>
    rw [State.freeWaiter_eq o hw]
    have left := h.setResource w.resource (x := { s.resource w.resource with
      queue := (s.resource w.resource).queue.filter fun k => !decide (k = j) }) rfl rfl (h.config _)
    refine setSession (spared := fun k => spared k ∧ k ≠ .waiter j) ?_ _ _
    refine
      { toListed := left.toListed.cleared ?_ (fun k hk => State.entryOf_setWaiterRecord_of_ne _ hk) rfl
        phases := fun i l hl => (h.phases i l hl).imp_right fun hs => ⟨hs, nofun⟩
        settle := left.settle
        config := left.config
        reached := h.reached }
    simp [State.entryOf, State.setWaiterRecord_waiter]

/-- A new waiter joins a queue, its entry armed (R59). -/
theorem enqueue (h : s.Timed spared) (j : WaiterSlot) {w : Waiter} (coming : Machine.reached s.now w.deadline = false) :
    (s.enqueue j w).Timed spared := by
  have joined : ((s.setWaiter j w).arm
      ⟨.waiter j, some ((s.setWaiter j w).waiterRecord j).incarnation, .wait, w.deadline⟩).Timed spared :=
    { toListed := by
        refine .weaken (h.toListed.armed ?_ (fun o ho => ?_) rfl (h.newEntry (.inr coming)))
        · simp [State.setWaiter, State.entryOf, State.setWaiterRecord_waiter]
        · exact s.entryOf_setWaiterRecord_of_ne ho
      phases := h.phases
      settle := h.settle
      config := h.config
      reached := h.reached }
  exact setSession (setResource (s := ((s.setWaiter j w).setBox w.client _).arm _) (setBox joined w.client _) w.resource
    (by rfl) (by rfl) (by exact h.config w.resource)) _ _

theorem dropQueue (h : s.Timed spared) (r : ResourceId) : (s.dropQueue r).Timed spared := by
  rw [State.dropQueue_eq]
  generalize (s.resource r).queue = slots
  induction slots generalizing s with
  | nil => exact h
  | cons j slots ih =>
    refine ih ?_
    unfold State.dropWaiterOffline
    split
    · exact h
    · exact (freeWaiter (setBox (setBox h _ _) _ _) j _).weaken

end State.Timed

end Sys2Proof.Machine
end

section
/-!
The deadline list through an event (R74, R75, R99): between two items of work only the leases on their way out may be
without their entries, and the end of the event leaves none of these.
-/

namespace Sys2Proof.Machine

/-! ### Leases on their way out -/

/-- The lease in slot `i` has left its holder set, and its slot is still to be freed. -/
def State.Departed (s : State) (i : LeaseSlot) : Prop := ∃ l, s.lease i = some l ∧ s.stands i l = false

/-- A lease whose end is among the work to do, or that has left its holder set. -/
def State.Leaving (s : State) (work : List Work) (o : Owner) : Prop :=
  ∃ i, o = .lease i ∧ ((∃ cause, .endLease i cause ∈ work) ∨ s.Departed i)

/-- A lease that has left its holder set has still left it where leases stay and no holder set gains it. -/
theorem State.Departed.mono {s t : State} {i : LeaseSlot} (h : s.Departed i)
    (lease : ∀ l, s.lease i = some l → ∃ l', t.lease i = some l' ∧ l'.resource = l.resource ∧ l'.holder = l.holder)
    (holder : ∀ r c, (t.resource r).holder c = some i → (s.resource r).holder c = some i) : t.Departed i := by
  obtain ⟨l, hl, gone⟩ := h
  obtain ⟨l', hl', hr, hh⟩ := lease l hl
  refine ⟨l', hl', State.stands_eq_false.2 fun hs => State.stands_eq_false.1 gone (holder _ _ ?_)⟩
  rwa [hr, hh] at hs

theorem State.Departed.of_same {s t : State} {i : LeaseSlot} (h : s.Departed i) (lease : t.lease i = s.lease i)
    (holders : ∀ r, (t.resource r).holders = (s.resource r).holders) : t.Departed i :=
  h.mono (fun l hl => ⟨l, lease.trans hl, rfl, rfl⟩) fun r c => by rw [Resource.holder_congr (holders r)]; exact id

theorem State.Departed.setLease {s : State} {i k : LeaseSlot} {l l' : Lease} (h : s.Departed k) (hl : s.lease i = some l)
    (hr : l'.resource = l.resource) (hh : l'.holder = l.holder) : (s.setLease i l').Departed k := by
  refine h.mono (fun x hx => ?_) fun _ _ => id
  rw [State.setLease_lease]
  split
  · subst k
    cases hl.symm.trans hx
    exact ⟨l', rfl, hr, hh⟩
  · exact ⟨x, hx, rfl, rfl⟩

theorem State.Working.not_departed {s : State} (h : s.Working []) (i : LeaseSlot) : ¬ s.Departed i := by
  rintro ⟨l, hl, gone⟩
  exact State.stands_eq_false.1 gone ((h.standing _ _ i ⟨l, hl, rfl, rfl⟩).resolve_right (by simp))

/-! ### A grant (R62, R63) -/

theorem termInterval_phase (c : ResourceConfig) (now : Tick) (term : Half) : (termInterval c now term).phase ≠ .grace := by
  unfold termInterval
  dsimp only
  split <;> nofun

theorem grantInterval_phase (c : ResourceConfig) (now : Tick) (term : Half) :
    (grantInterval c now term).phase ≠ .grace := by
  unfold grantInterval
  split
  · exact termInterval_phase c now term
  · nofun

theorem walkQueue_keeps {P : State → Prop}
    (grant : ∀ s j w i, s.waiter j = some w → s.lease i = none → P s → P (s.grantWaiter j w i)) (r : ResourceId)
    (queue : List WaiterSlot) (s : State) (n : Nat) (h : P s) : P (walkQueue r queue s n).state := by
  induction queue generalizing s n with
  | nil => exact h
  | cons j queue ih =>
    unfold walkQueue
    split
    · exact h
    · rename_i w hw
      split
      · split
        · exact h
        · rename_i i hi
          exact ih _ _ (grant s j w i hw (State.freeLeaseSlot_free hi) h)
      · exact h

theorem State.passWalk_keeps {P : State → Prop}
    (grant : ∀ s j w i, s.waiter j = some w → s.lease i = none → P s → P (s.grantWaiter j w i)) (s : State)
    (r : ResourceId) (h : P s) : P (s.passWalk r).state := by
  unfold State.passWalk
  split
  · exact walkQueue_keeps grant r _ s 0 h
  · exact h

theorem State.Timed.grantWaiter {s : State} {spared : Owner → Prop} (h : s.Timed spared) (j : WaiterSlot) (w : Waiter)
    (i : LeaseSlot) : (s.grantWaiter j w i).Timed spared := by
  have coming := (endsAfter_grant (s.resource w.resource).config s.now w.term).not_reached (h.config w.resource)
  rw [State.grantWaiter_eq]
  exact .weaken (State.Timed.freeWaiter (State.Timed.beginLease (s := s.post w.client _) (h.setBox _ _) i _ _ _ _ coming
    (grantInterval_phase _ _ _)) j _)

/-- A grant takes a slot that was free. -/
theorem State.Departed.grantWaiter {s : State} {k : LeaseSlot} (h : s.Departed k) (j : WaiterSlot) (w : Waiter)
    {i : LeaseSlot} (hi : s.lease i = none) : (s.grantWaiter j w i).Departed k := by
  have other : k ≠ i := by
    rintro rfl
    obtain ⟨l, hl, -⟩ := h
    rw [hi] at hl
    cases hl
  rw [State.grantWaiter_eq]
  refine State.Departed.of_same (s := State.beginLease _ i _ _ _ _ _) ?_ (State.freeWaiter_lease _ j _ k)
    (State.freeWaiter_holders _ j _)
  refine h.mono (fun l hl => ⟨l, by rw [State.beginLease_lease, if_neg other]; exact hl, rfl, rfl⟩) fun r c hr => ?_
  rw [State.beginLease_resource] at hr
  split at hr
  · subst r
    rw [Resource.holder_set rfl] at hr
    split at hr
    · exact absurd (Option.some.inj hr).symm other
    · exact hr
  · exact hr

/-! ### A lease leaves its resource (R9 to R11) -/

theorem State.leftBy_lease (s : State) (l : Lease) (cause : EndCause) (k : LeaseSlot) :
    (s.leftBy l cause).lease k = s.lease k := by
  rw [State.lease, s.leftBy_leaseRecord l cause k]
  rfl

/-- The holder sets have lost that lease's client and nothing else. -/
theorem State.holder_of_leftBy {s : State} {l : Lease} {cause : EndCause} {r : ResourceId} {c : Client} {k : LeaseSlot}
    (h : ((s.leftBy l cause).resource r).holder c = some k) :
    (s.resource r).holder c = some k ∧ ¬ (r = l.resource ∧ c = l.holder) := by
  by_cases hr : r = l.resource
  · subst hr
    rw [Resource.holder_set (s.leftBy_holders l cause)] at h
    split at h
    · cases h
    · exact ⟨h, by simp [*]⟩
  · rw [State.leftBy, Resource.holder_congr (State.afterLeaseLeft_holders _ _ _ r), State.lostHolder,
      State.setResource_resource_of_ne _ _ _ _ hr] at h
    exact ⟨h, by simp [hr]⟩

theorem State.Timed.leftBy {s : State} {spared : Owner → Prop} (h : s.Timed spared) (l : Lease) (cause : EndCause) :
    (s.leftBy l cause).Timed spared := by
  have lost : (s.lostHolder l).Timed spared :=
    (h.setGate _).setResource l.resource (by rfl) (by rfl) (by exact h.config l.resource)
  exact lost.afterLeaseLeft l.resource cause

/-! ### The items of work -/

namespace State.Timed

variable {s t : State} {work work' rest : List Work}

/-- The leases that were on their way out still are, or are out. -/
theorem relay (h : t.Timed (s.Leaving work)) (still : ∀ i, (t.lease i).isSome = true →
    (∃ cause, .endLease i cause ∈ work) ∨ s.Departed i → (∃ cause, .endLease i cause ∈ work') ∨ t.Departed i) :
    t.Timed (t.Leaving work') := by
  refine h.mono ?_
  rintro _ e he ⟨i, rfl, hi⟩
  refine ⟨i, rfl, still i ?_ hi⟩
  obtain ⟨l, hl, -⟩ := Option.map_eq_some_iff.1 he
  rw [hl]
  rfl

/-- An item that is not a lease's end is done. -/
theorem done {w : Work} {more : List Work} (h : t.Timed (s.Leaving (w :: rest))) (hw : ∀ i cause, w ≠ .endLease i cause)
    (departed : ∀ i, s.Departed i → t.Departed i) : t.Timed (t.Leaving (more ++ rest)) := by
  refine h.relay fun i _ => Or.imp (fun ⟨cause, hm⟩ => ⟨cause, ?_⟩) (departed i)
  exact List.mem_append_right _ ((List.mem_cons.1 hm).resolve_left fun e => hw i cause e.symm)

theorem recallItem {i : LeaseSlot} {reason : RecallReason} {grace : Byte}
    (h : s.Timed (s.Leaving (.recallLease i reason grace :: rest))) :
    (s.recallLease i reason grace).1.Timed
      ((s.recallLease i reason grace).1.Leaving ((s.recallLease i reason grace).2 ++ rest)) := by
  unfold State.recallLease
  split
  · exact h.done nofun fun _ => id
  · rename_i l hl
    dsimp only
    split_ifs with active cut
    · have toEnd : s.Timed (s.Leaving ([.endLease i .forced] ++ rest)) := h.done nofun fun _ => id
      have spared : s.Leaving ([.endLease i .forced] ++ rest) (.lease i) := ⟨i, rfl, .inl ⟨.forced, by simp⟩⟩
      refine relay (setLease (toEnd.setBox _ _) hl (by rfl) (by rfl) (.inr spared)) fun k _ => Or.imp_right ?_
      exact fun departed => departed.setLease hl rfl rfl
    · have coming := (endsAfter_setWidth (by decide) s.now grace).not_reached cut
      refine done (.weaken (rearmed (h.setBox _ _) i (.inr coming) (by simp))) nofun fun k departed => ?_
      exact departed.setLease hl rfl rfl
    · exact h.done nofun fun _ => id

theorem endItem {i : LeaseSlot} {cause : EndCause} (h : s.Timed (s.Leaving (.endLease i cause :: rest))) :
    (s.endLeaseStep i cause).1.Timed
      ((s.endLeaseStep i cause).1.Leaving ((s.endLeaseStep i cause).2 ++ rest)) := by
  have step : ∀ {t : State} {more : List Work}, t.Timed (s.Leaving (.endLease i cause :: rest)) →
      (∀ k, s.Departed k → t.Departed k) → ((t.lease i).isSome = true → t.Departed i) →
      t.Timed (t.Leaving (more ++ rest)) := by
    intro t more ht departed out
    refine ht.relay fun k hk => ?_
    rintro (⟨cause', hm⟩ | hd)
    · rcases List.mem_cons.1 hm with e | hm
      · cases e
        exact .inr (out hk)
      · exact .inl ⟨cause', List.mem_append_right _ hm⟩
    · exact .inr (departed k hd)
  unfold State.endLeaseStep
  split
  · rename_i none
    exact step h (fun _ => id) fun hi => by rw [none] at hi; cases hi
  · rename_i l hl
    split_ifs with stands
    · have lease := s.leftBy_lease l cause
      have left : (s.leftBy l cause).Timed (s.Leaving (.endLease i cause :: rest)) := h.leftBy l cause
      refine step left (fun k hk => ?_) fun _ => ?_
      · exact hk.mono (fun x hx => ⟨x, (lease k).trans hx, rfl, rfl⟩) fun r c hr => (State.holder_of_leftBy hr).1
      · exact ⟨l, (lease i).trans hl, State.stands_eq_false.2 fun hs => (State.holder_of_leftBy hs).2 ⟨rfl, rfl⟩⟩
    · exact step h (fun _ => id) fun _ => ⟨l, hl, by simpa using stands⟩

theorem freeItem {i : LeaseSlot} {cause : EndCause} (h : s.Timed (s.Leaving (.freeSlot i cause :: rest))) :
    (s.freeLease i cause).Timed ((s.freeLease i cause).Leaving ([] ++ rest)) := by
  refine (h.freeLease i cause).relay fun k hk => Or.imp (fun ⟨cause', hm⟩ => ⟨cause', by simpa using hm⟩) fun hd => ?_
  obtain ⟨l, hl⟩ := Option.isSome_iff_exists.1 hk
  refine hd.mono (fun x hx => ?_) fun r c => by rw [State.freeLease_resource]; exact id
  cases hx.symm.trans (State.lease_of_freeLease cause hl)
  exact ⟨l, hl, rfl, rfl⟩

/-- Every item of work keeps the list and the owners in agreement. -/
theorem item (w : Work) (rest : List Work) (s : State) (h : s.Timed (s.Leaving (w :: rest))) :
    (doWork w s).1.Timed ((doWork w s).1.Leaving ((doWork w s).2 ++ rest)) := by
  cases w with
  | recallLease i reason grace => exact h.recallItem
  | endLease i cause => exact h.endItem
  | freeSlot i cause => exact h.freeItem
  | check r => exact h.done nofun fun _ => id
  | starvedFrom index => simp only [doWork]; split <;> exact h.done nofun fun _ => id
  | endHolding r c cause => simp only [doWork]; split <;> exact h.done nofun fun _ => id
  | pass r =>
    have walked := s.passWalk_keeps (fun _ j w i _ _ h => h.grantWaiter j w i) r h
    refine done (walked.setResource r (by rfl) (by rfl) (by exact walked.config r)) nofun fun k hk => ?_
    refine State.Departed.of_same (s := (s.passWalk r).state) ?_ rfl (State.setResource_holders rfl)
    exact s.passWalk_keeps (P := (·.Departed k)) (fun _ j w _ _ free hk => hk.grantWaiter j w free) r hk
  | removeWaiting r c o =>
    simp only [doWork, State.removeWaitingStep]
    split
    · exact h.done nofun fun _ => id
    · split
      · exact h.done nofun fun _ => id
      · refine done (.weaken ((h.setBox c _).freeWaiter _ o)) nofun fun k hk => ?_
        exact hk.of_same (State.freeWaiter_lease _ _ _ k) (State.freeWaiter_holders _ _ _)

end State.Timed

end Sys2Proof.Machine
end

section
/-!
The deadline list through every request, every expiry and every step (R99, R101, R103).
-/

namespace Sys2Proof.Machine

/-! ### Events -/

/-- Within an event that has this work still to do, the tables agree, and the deadline list with its owners. -/
def State.OnTime (work : List Work) (s : State) : Prop := s.Working work ∧ s.Timed (s.Leaving work)

/-- No owner is spared. -/
abbrev spareNone : Owner → Prop := fun _ => False

namespace State.OnTime

variable {s : State}

/-- With no work left no lease is on its way out. -/
theorem timed (h : s.OnTime []) : s.Timed spareNone := by
  refine h.2.mono ?_
  rintro _ _ - ⟨i, rfl, ⟨_, hm⟩ | departed⟩
  · cases hm
  · exact h.1.not_departed i departed

theorem of_timed {work : List Work} (hw : s.Working []) (h : s.Timed spareNone) : s.OnTime work :=
  ⟨hw.mono (by simp), h.mono fun _ _ _ => False.elim⟩

end State.OnTime

theorem State.Working.rearmed {s : State} {work : List Work} (h : s.Working work) {i : LeaseSlot} {l l' : Lease}
    (hl : s.lease i = some l) (hr : l'.resource = l.resource) (hh : l'.holder = l.holder) : (s.rearmed i l').Working work :=
  (h.setLease hl hr hh).of_tables (t := s.rearmed i l') rfl

theorem State.Working.queued {s : State} (h : s.Working []) {c : Client} {a : AcquireParams} {j : WaiterSlot}
    (ha : s.admission c a = none) (hj : s.freeWaiterSlot = some j) (full : Bool) : (s.queued c a j full).Working [] := by
  have joined : (s.enqueue j (a.waiter c s.now)).Working [] :=
    h.enqueue (State.freeWaiterSlot_free hj) (h.noClaim ha).1 (h.noClaim ha).2
  unfold State.queued
  dsimp only
  split
  · exact joined.setResource _ rfl rfl
  · exact joined

namespace State.Timed

variable {s : State} {spared : Owner → Prop}

theorem queued (h : s.Timed spared) (c : Client) (a : AcquireParams) (j : WaiterSlot) (full : Bool)
    (limit : a.waitLimit ≠ 0) : (s.queued c a j full).Timed spared := by
  have joined : (s.enqueue j (a.waiter c s.now)).Timed spared :=
    h.enqueue j ((endsAfter_setWidth (by decide) s.now a.waitLimit).not_reached limit)
  unfold State.queued
  dsimp only
  split
  · exact joined.setResource _ (by rfl) (by rfl) (by exact joined.config _)
  · exact joined

theorem offlineNow (h : s.Timed spared) (r : ResourceId) : (s.offlineNow r).Timed spared := by
  have dropped := h.dropQueue r
  refine
    { toListed := .weaken (dropped.toListed.cleared (o := .resource r) ?_ (fun o ho => ?_) rfl)
      phases := dropped.phases
      settle := State.SettleLaw.setResource dropped.settle (by simp)
      config := State.ConfigLaw.setResource dropped.config (dropped.config r)
      reached := dropped.reached }
  · simp [State.entryOf, State.offlineNow]
  · exact (s.dropQueue r).entryOf_setResource_of_ne ho

theorem beginDraining (h : s.Timed spared) (queues : s.QueuesAgree) {r : ResourceId} (held : (s.resource r).state = .held) :
    (s.beginDraining r).Timed spared := by
  refine setState (h.dropQueue r) r ?_ nofun (by rfl) (by rfl)
  rw [queues.dropQueue_resource, if_pos rfl]
  exact held ▸ nofun

end State.Timed

/-- Every event keeps the tables and the deadline list in agreement. -/
theorem eventSteps_onTime : EventSteps fun work s => s.OnTime work where
  start _ _ h := .of_timed h.1 h.timed
  item w rest s h := ⟨h.1.item w rest s, h.2.item w rest s⟩
  box _ c b _ h := .of_timed (h.1.of_tables rfl) (h.timed.setBox c b)
  session _ c x hl hw _ _ h := .of_timed (h.1.setSession hl hw) (h.timed.setSession c x)
  threshold _ c x b hl hw _ _ _ h :=
    .of_timed ((h.1.setSession hl hw).of_tables rfl) ((h.timed.setSession c x).setBox c b)
  rights _ c _ _ h := .of_timed (h.1.setSession (by rfl) (by rfl)) (h.timed.setSession c _)
  timeBase _ _ _ _ h := .of_timed (h.1.of_tables rfl) { h.timed with }
  configure _ r _ _ hc h := .of_timed (h.1.setResource r (by rfl) (by rfl)) (h.timed.setResource r (by rfl) (by rfl) hc)
  downgrade _ _ _ hl h :=
    .of_timed (h.1.setLease hl (by rfl) (by rfl)) (h.timed.setLease hl (by rfl) (by rfl) (.inl (by rfl)))
  renew s i l term hl ha h := by
    have coming : reached s.now (l.renewed (termInterval (s.resource l.resource).config s.now term)).deadline = false :=
      (endsAfter_term (s.resource l.resource).config s.now term).not_reached (h.timed.config _)
    have phase := termInterval_phase (s.resource l.resource).config s.now term
    exact .of_timed (h.1.rearmed hl rfl rfl) (h.timed.rearmed i (.inr coming) (by simp [Lease.renewed, ha, phase])).weaken
  grant s c a i ha hi hf h := by
    have coming := (endsAfter_grant (s.resource a.resource).config s.now a.term).not_reached (h.timed.config _)
    exact .of_timed (eventInvariant_working.grant s c a i ha hi hf h.1)
      (h.timed.beginLease i _ c _ _ coming (grantInterval_phase _ _ _))
  queue s c a j full ha hj limit h := by
    exact .of_timed (h.1.queued ha hj full) (h.timed.queued c a j full limit)
  freeWaiter _ j o h := .of_timed (h.1.freeWaiter j o) (h.timed.freeWaiter j o).weaken
  online _ r hr h :=
    .of_timed (h.1.setResource r (by rfl) (by rfl)) (h.timed.setState r (by simp [hr]) nofun (by rfl) (by rfl))
  offline s r h := by
    have dropped := (h.1.dropQueue r).of_tables (t := (s.dropQueue r).disarm (.resource r)) rfl
    exact .of_timed (dropped.setResource r (by rfl) (by rfl)) (h.timed.offlineNow r)
  drain _ r hr h :=
    .of_timed ((h.1.dropQueue r).setResource r (by rfl) (by rfl)) (h.timed.beginDraining h.1.queues hr)
  unfence s r hr h := by
    refine .of_timed ((eventInvariant_working.unfence s r hr h.1).mono ?_) (h.timed.settleOrIdle (by simp [hr]))
    simp only [State.settleOrIdle]
    split <;> simp
  unmark _ r h :=
    .of_timed (h.1.setResource r (by rfl) (by rfl)) (h.timed.setResource r (by rfl) (by rfl) (by exact h.timed.config r))

/-! ### Deliveries (R103) -/

theorem State.Timed.deliver {s : State} {spared : Owner → Prop} (h : s.Timed spared) : s.deliver.Timed spared where
  toListed := h.toListed.deliver
  phases := h.phases
  settle := h.settle
  config := h.config
  reached := by
    rcases s.deliver_cases with e | ⟨x, rest, -, reached, delivered⟩
    · rw [e]
      exact h.reached
    · rw [delivered]
      intro e he
      cases he
      exact reached

theorem State.Timed.testHead {s t : State} {spared : Owner → Prop} (h : t.Timed spared) : (s.testHead t).Timed spared := by
  rcases s.testHead_cases t with e | e <;> rw [e]
  · exact h
  · exact h.deliver

/-! ### Expiries (R3, R12, R41, R42, R67, R78, R90, R91) -/

section
variable {s : State} {e : Entry}

theorem State.Current.lease_isSome {i : LeaseSlot} (h : s.Current e) (ho : e.owner = .lease i) :
    ∃ l, s.lease i = some l := by
  rw [State.current_iff, ho] at h
  obtain ⟨l, hl, -⟩ := Option.map_eq_some_iff.1 h
  exact ⟨l, hl⟩

theorem State.Current.waiter_isSome {j : WaiterSlot} (h : s.Current e) (ho : e.owner = .waiter j) :
    ∃ w, s.waiter j = some w := by
  rw [State.current_iff, ho] at h
  obtain ⟨w, hw, -⟩ := Option.map_eq_some_iff.1 h
  exact ⟨w, hw⟩

/-- Once the owed expiry is taken, its owner is without entry where the expiry is current. -/
theorem State.Timed.expiryTaken (h : s.Timed spareNone) (howed : s.deadlines.owed = some e) :
    s.expiryTaken.Timed fun o => o = e.owner ∧ s.Current e where
  named := h.named
  listed o x hx := by
    refine (h.listed o x hx).imp_right ?_
    rintro (owed | none)
    · cases howed.symm.trans owed
      have same := State.owner_of_entryOf hx
      refine .inr ⟨same.symm, State.current_iff.2 ?_⟩
      rw [State.asListed_of_entryOf hx, same]
      exact hx
    · exact none.elim
  oneEach := h.oneEach
  apart _ hx := by cases hx
  phases i l hl := (h.phases i l hl).imp_right False.elim
  settle := h.settle
  config := h.config
  reached _ hx := by cases hx

/-- The one spared owner has its entry again, or is gone. -/
theorem State.Timed.restored {t : State} {o : Owner} (h : t.Timed fun k => k = o ∧ k ≠ o) : t.Timed spareNone :=
  h.mono fun _ _ _ hs => hs.2 hs.1

/-- The recall of an ACTIVE lease whose expiry has been taken: a new entry for the grace, or the end of the lease. -/
theorem State.Timed.run_recall {i : LeaseSlot} {l : Lease} {reason : RecallReason} {grace : Byte} (hw : s.Working [])
    (h : s.Timed (· = .lease i)) (fresh : s.deadlines.owed = none) (hl : s.lease i = some l) (ha : l.state = .active) :
    (s.run [.recallLease i reason grace]).Timed spareNone := by
  by_cases hg : grace = 0
  · subst hg
    rw [State.run_recall_cut hl ha]
    have tables : (s.recalledToCut i l reason).Working [.endLease i .forced] :=
      State.Working.setLease ((hw.of_tables (t := s.post l.holder (s.recallNotice i l reason 0)) rfl).mono (by simp)) hl
        (by rfl) (by rfl)
    have timed : (s.recalledToCut i l reason).Timed (· = .lease i) :=
      (h.setBox _ _).setLease hl (by rfl) (by rfl) (.inr rfl)
    exact (eventSteps_onTime.done (by simp)
      ⟨tables, timed.mono fun o _ _ ho => ⟨i, ho, .inl ⟨.forced, by simp⟩⟩⟩).timed
  · rw [State.run_recall hl ha hg]
    exact (rearmed (h.setBox _ _) i (.inl fresh) (by simp [Lease.recalled])).restored

section
variable (hw : s.expiryTaken.Working []) (h : s.Timed spareNone) (howed : s.deadlines.owed = some e) (hc : s.Current e)
include hw h howed hc

theorem State.Timed.act_lease {i : LeaseSlot} (ho : e.owner = .lease i) :
    (e.purpose.act e s.expiryTaken).Timed spareNone := by
  have taken : s.expiryTaken.Timed (· = .lease i) := (h.expiryTaken howed).mono fun o _ _ hs => hs.1.trans ho
  obtain ⟨l, hl⟩ := hc.lease_isSome ho
  have law := (h.phases i l hl).resolve_right id
  rw [← hc.phase ho hl]
  cases phase : l.phase <;> simp only [phase] at law <;> dsimp only [Phase.purpose, Purpose.act]
  case warn =>
    rw [warnAct_of_current hc ho hl]
    exact ((taken.setBox _ _).rearmed i (.inl rfl) (by simpa using law)).restored
  case expire =>
    rw [expireAct_of_current hc ho hl]
    exact taken.run_recall hw rfl hl (by simpa using law)
  case slice =>
    by_cases hq : (s.resource l.resource).queue = []
    · rw [sliceAct_of_empty hc ho hl hq]
      exact (taken.rearmed i (.inl rfl) (by simpa [phase] using law)).restored
    · rw [sliceAct_of_waiters hc ho hl hq]
      exact taken.run_recall hw rfl hl (by simpa using law)
  case grace =>
    simp only [graceAct, hc.lease ho hl]
    exact (eventSteps_onTime.done (by simp)
      ⟨hw.mono (by simp), taken.mono fun o _ _ ho => ⟨i, ho, .inl ⟨.forced, by simp⟩⟩⟩).timed

theorem State.Timed.act_waiter {j : WaiterSlot} (ho : e.owner = .waiter j) :
    (e.purpose.act e s.expiryTaken).Timed spareNone := by
  have taken : s.expiryTaken.Timed (· = .waiter j) := (h.expiryTaken howed).mono fun o _ _ hs => hs.1.trans ho
  obtain ⟨w, hwj⟩ := hc.waiter_isSome ho
  rw [(hc.waiter ho hwj).1]
  dsimp only [Purpose.act]
  rw [waitAct_of_current ho hwj hc]
  have freed : ∀ b, ((s.expiryTaken.setBox w.client b).freeWaiter j .timedOut).OnTime [] := fun b =>
    .of_timed ((hw.of_tables (t := s.expiryTaken.setBox w.client b) rfl).freeWaiter j .timedOut)
      ((taken.setBox w.client b).freeWaiter j .timedOut).restored
  refine (eventSteps_onTime.run ?_ (freed _)).timed
  split <;> simp

theorem State.Timed.act_resource {r : ResourceId} (ho : e.owner = .resource r) (absent : s.entriesOf (.resource r) = []) :
    (e.purpose.act e s.expiryTaken).Timed spareNone := by
  have taken : s.expiryTaken.Timed (· = .resource r) := (h.expiryTaken howed).mono fun o _ _ hs => hs.1.trans ho
  obtain ⟨purpose, current⟩ := hc.resource ho
  rw [purpose]
  simp only [Purpose.act, settleAct, current]
  have idle := (taken.leaveSettling r (x := { s.resource r with state := .idle, settleDeadline := none }) absent nofun rfl
    (h.config r)).restored
  exact (eventSteps_onTime.done (by simp) (.of_timed (hw.setResource r (by rfl) (by rfl)) idle)).timed

end

/-- Every expiry leaves the list and the owners in agreement. -/
theorem State.Timed.act (hs : s.RecordLaws) (h : s.Timed spareNone) (owed : s.OwedLaw) (howed : s.deadlines.owed = some e) :
    (e.purpose.act e s.expiryTaken).Timed spareNone := by
  have tables : s.expiryTaken.Working [] := hs.working.of_tables rfl
  by_cases hc : s.Current e
  · cases ho : e.owner with
    | lease i => exact h.act_lease tables howed hc ho
    | waiter j => exact h.act_waiter tables howed hc ho
    | resource r => exact h.act_resource tables howed hc ho (ho ▸ owed e howed hc)
  · rw [act_of_stale hc]
    exact (h.expiryTaken howed).mono fun _ _ _ hs => hc hs.2

end

/-! ### Every step -/

/-- The laws of the deadline list, beside the record laws. -/
theorem State.deadlineLaws_iff {s : State} : s.DeadlineLaws ↔
    s.RecordLaws ∧ s.Listed spareNone ∧ s.PhaseLaw ∧ s.SettleLaw := by
  refine ⟨fun h => ⟨h.toRecordLaws, ⟨h.entries.1, fun o e he => ?_, h.oneEach, fun e he hm => ?_⟩, h.phases, h.settle⟩,
    fun ⟨records, list, phases, settle⟩ => ⟨records, ⟨list.named, fun o e he => ?_⟩, list.oneEach, fun e he hc => ?_,
      phases, settle⟩⟩
  · exact (h.entries.2 o e he).imp_right .inl
  · have none := h.owed e he (State.current_iff.2 (e.asListed_owner ▸ h.entries.1 _ hm))
    have : e.asListed ∈ s.entriesOf e.owner := List.mem_filter.2 ⟨hm, by simp [e.asListed_owner]⟩
    rw [none] at this
    cases this
  · exact (list.listed o e he).imp_right fun h => h.resolve_right id
  · refine List.filter_eq_nil_iff.2 fun x hx same => list.apart e he ?_
    have same : x.owner = e.owner := by simpa using same
    have := (list.named x hx).symm.trans (same ▸ State.current_iff.1 hc)
    rwa [← Option.some.inj this]

theorem State.agree_of_records {s t : State} (h : s.Listed spareNone ∧ s.PhaseLaw ∧ s.SettleLaw)
    (e : t.records = s.records) : t.Listed spareNone ∧ t.PhaseLaw ∧ t.SettleLaw := by
  obtain ⟨⟨h1, h2, h3, h4⟩, h5, h6⟩ := h
  cases s; cases t
  simp only [State.records, Prod.mk.injEq] at e
  obtain ⟨rfl, rfl, rfl, rfl, rfl, rfl, rfl⟩ := e
  exact ⟨⟨h1, h2, h3, h4⟩, h5, h6⟩

theorem State.Timed.of_records {s t : State} {spared : Owner → Prop} (h : s.Timed spared) (e : t.records = s.records) :
    t.Timed spared := by
  obtain ⟨⟨h1, h2, h3, h4⟩, h5, h6, h7, h8⟩ := h
  cases s; cases t
  simp only [State.records, Prod.mk.injEq] at e
  obtain ⟨rfl, rfl, rfl, rfl, rfl, rfl, rfl⟩ := e
  exact ⟨⟨h1, h2, h3, h4⟩, h5, h6, h7, h8⟩

/-- Right after device reset there is no owner and no entry. -/
theorem reset_timed : State.reset.Timed spareNone := by
  obtain ⟨-, list, phases, settle⟩ := State.deadlineLaws_iff.1 reset_deadlineLaws
  exact ⟨list, fun i l hl => .inl (phases i l hl), settle, reset_resourceLaws.config, by simp [State.OwedReached]⟩

/-- Every command but a tick leaves the list and the owners in agreement. -/
theorem exec_keeps_timed {s t : State} {c : Instr} (hs : s.RecordLaws) (h : s.Timed spareNone) (owed : s.OwedLaw)
    (he : exec c s = .next t) : t.Timed spareNone ∨ t.records = s.advance.records := by
  by_cases hc : c = .deviceReset
  · subst hc
    rw [← Host.Outcome.next.inj he]
    exact .inl (reset_timed.of_records (t := s.afterReset) rfl)
  have begins : s.beginEvent.OnTime [] := .of_timed hs.working (h.setGate _)
  rcases exec_records_cases hc he with ⟨p, b, -, e⟩ | e | e | ⟨k, p, params, e⟩ | ⟨x, hx, e⟩ | ⟨p, e⟩
  · exact .inl ((h.setBox p b).of_records e)
  · exact .inr e
  · exact .inl (h.deliver.of_records e)
  · exact .inl ((eventSteps_onTime.body k p params begins).timed.testHead.of_records e)
  · exact .inl ((h.act hs owed hx).deliver.of_records e)
  · exact .inl ((eventSteps_onTime.endSession p .tornDown .tornDown .portReset begins).timed.testHead.of_records e)

theorem State.refclk_timed {s : State} (h : s.Timed spareNone) : s.refclk.Timed spareNone ∨ s.refclk = s.advance := by
  unfold State.refclk
  split_ifs
  · exact .inl h
  · exact .inl { h with }
  · exact .inr rfl

theorem State.advance_now (s : State) : s.advance.now ≠ s.now := by
  have : s.advance.now = s.now + 1 := rfl
  rw [this]
  simp

/-- Settles O58: within an event only the leases on their way out are without entries, and a taken expiry's owner. -/
theorem stepKeepsDeadlineLaws : Obligations.StepKeepsDeadlineLaws := by
  intro s t hs config reached hstep
  have records : t.RecordLaws := stepKeepsRecordLaws s t hs.toRecordLaws hstep
  obtain ⟨-, list, phases, settle⟩ := State.deadlineLaws_iff.1 hs
  have timed : s.Timed spareNone := ⟨list, fun i l hl => .inl (phases i l hl), settle, config, reached⟩
  suffices step : t.Timed spareNone ∨ t.records = s.advance.records by
    rcases step with h | e
    · exact ⟨State.deadlineLaws_iff.2 ⟨records, h.toListed, fun i l hl => (h.phases i l hl).resolve_right id, h.settle⟩,
        fun _ => h.reached⟩
    · obtain ⟨list', phases', settle'⟩ := State.agree_of_records (s := s.advance)
        ⟨State.Listed.deliver (s := s.setTimeBase s.timeBase.tick) { list with }, phases, settle⟩ e
      have now : t.now = s.advance.now := congrArg (fun records => records.1.counter) e
      exact ⟨State.deadlineLaws_iff.2 ⟨records, list', phases', settle'⟩, fun same => absurd (now.symm.trans same) s.advance_now⟩
  unfold step at hstep
  split at hstep
  · rw [← Host.Outcome.next.inj hstep]
    exact (State.refclk_timed timed).imp_right fun e => by rw [e]
  · rename_i c rest _
    exact exec_keeps_timed (s := { s with pending := rest }) (hs.toRecordLaws.of_tables rfl)
      (timed.of_records rfl) hs.owed hstep

end Sys2Proof.Machine
end

section
/-!
SUPPORT. What an event's work does to one client's waiters and holdings: waiters only ever leave, and a client that waits
for nothing comes to hold nothing new. So the two steps of a session end leave the client no waiter and no lease, whatever
else they set off (R73, R117, R120).
-/

namespace Sys2Proof.Machine

/-- Client `c` has a waiter for resource `r`. -/
def State.waitsFor (s : State) (r : ResourceId) (c : Client) : Prop := ∃ j : WaiterSlot, s.waitsIn r c j

/-! ### Waiters only leave -/

/-- Every waiter of `t` is one of `s`, unchanged. -/
def State.KeepsOrLosesWaiters (s t : State) : Prop := ∀ j w, t.waiter j = some w → s.waiter j = some w

namespace State.KeepsOrLosesWaiters

variable {s t u : State}

theorem of_same (h : ∀ j, t.waiter j = s.waiter j) : s.KeepsOrLosesWaiters t := fun j _ hw => (h j).symm.trans hw

theorem trans (h : s.KeepsOrLosesWaiters t) (h' : t.KeepsOrLosesWaiters u) : s.KeepsOrLosesWaiters u :=
  fun j w hw => h j w (h' j w hw)

theorem freeWaiter (s : State) (j : WaiterSlot) (o : Outcome) : s.KeepsOrLosesWaiters (s.freeWaiter j o) := by
  intro k w hw
  rw [State.freeWaiter_waiter] at hw
  split at hw
  · cases hw
  · exact hw

theorem grantWaiter (s : State) (j : WaiterSlot) (w : Waiter) (i : LeaseSlot) :
    s.KeepsOrLosesWaiters (s.grantWaiter j w i) := by
  rw [State.grantWaiter_eq]
  exact freeWaiter _ j _

theorem not_waitsFor (h : s.KeepsOrLosesWaiters t) {r : ResourceId} {c : Client} (hs : ¬ s.waitsFor r c) :
    ¬ t.waitsFor r c := fun ⟨j, w, hw, e⟩ => hs ⟨j, w, h j w hw, e⟩

theorem grantPass (s : State) (r : ResourceId) : s.KeepsOrLosesWaiters (s.grantPass r).1 := by
  have walk : s.KeepsOrLosesWaiters (s.passWalk r).state :=
    s.passWalk_keeps (fun u j w i _ _ h => h.trans (grantWaiter u j w i)) r fun _ _ h => h
  exact walk.trans (of_same fun _ => rfl)

end State.KeepsOrLosesWaiters

theorem doWork_waiters (w : Work) (s : State) : s.KeepsOrLosesWaiters (doWork w s).1 := by
  cases w with
  | pass r => exact .grantPass s r
  | check r => exact .of_same fun _ => rfl
  | recallLease i reason grace =>
    simp only [doWork, State.recallLease]
    split
    · exact .of_same fun _ => rfl
    · split_ifs <;> exact .of_same fun _ => rfl
  | endLease i cause =>
    simp only [doWork, State.endLeaseStep]
    split
    · exact .of_same fun _ => rfl
    · split
      · exact .of_same fun j => State.afterLeaseLeft_waiter _ _ _ j
      · exact .of_same fun _ => rfl
  | freeSlot i cause => exact .of_same (State.freeLease_waiter s i cause)
  | starvedFrom index => simp only [doWork]; split <;> exact .of_same fun _ => rfl
  | endHolding r c cause => simp only [doWork]; split <;> exact .of_same fun _ => rfl
  | removeWaiting r c o =>
    simp only [doWork, State.removeWaitingStep]
    split
    · exact .of_same fun _ => rfl
    · split
      · exact .of_same fun _ => rfl
      · exact .freeWaiter (s.giveBack c 2) _ o

theorem State.run_waiters (s : State) (work : List Work) : s.KeepsOrLosesWaiters (s.run work) :=
  s.run_keeps (fun t => s.KeepsOrLosesWaiters t) (fun w t h => h.trans (doWork_waiters w t)) work fun _ _ h => h

/-! ### A client that waits for nothing comes to hold nothing new -/

/-- Client `c` waits for nothing in `t`, and holds nothing there that it did not hold in `s`. -/
structure State.KeepsOrLosesHoldings (s t : State) (c : Client) : Prop where
  idle : ∀ r, ¬ t.waitsFor r c
  holder : ∀ r i, (t.resource r).holder c = some i → (s.resource r).holder c = some i

namespace State.KeepsOrLosesHoldings

variable {s t u : State} {c : Client}

/-- A step that grants nothing. -/
theorem of_holders (h : s.KeepsOrLosesHoldings t c) (waiters : t.KeepsOrLosesWaiters u)
    (holders : ∀ r, (u.resource r).holders = (t.resource r).holders) : s.KeepsOrLosesHoldings u c where
  idle r := waiters.not_waitsFor (h.idle r)
  holder r i hi := h.holder r i ((Resource.holder_congr (holders r) c).symm.trans hi)

theorem grantWaiter (h : s.KeepsOrLosesHoldings t c) {j : WaiterSlot} {w : Waiter} (hw : t.waiter j = some w)
    (i : LeaseSlot) : s.KeepsOrLosesHoldings (t.grantWaiter j w i) c where
  idle r := (KeepsOrLosesWaiters.grantWaiter t j w i).not_waitsFor (h.idle r)
  holder r k hk := by
    have other : c ≠ w.client := fun e => h.idle w.resource ⟨j, w, hw, rfl, e.symm⟩
    refine h.holder r k ?_
    rw [State.grantWaiter_resource i hw] at hk
    split at hk
    · rwa [Resource.holder_set rfl, if_neg other] at hk
    · exact hk

theorem grantPass (h : s.KeepsOrLosesHoldings t c) (r : ResourceId) :
    s.KeepsOrLosesHoldings (t.grantPass r).1 c := by
  have walk : s.KeepsOrLosesHoldings (t.passWalk r).state c :=
    State.passWalk_keeps (P := fun u => s.KeepsOrLosesHoldings u c) (fun u j w i hw _ hu => hu.grantWaiter hw i) t r h
  exact walk.of_holders (.of_same fun _ => rfl) (State.setResource_holders (by rfl))

theorem leftBy (h : s.KeepsOrLosesHoldings t c) (l : Lease) (cause : EndCause) :
    s.KeepsOrLosesHoldings (t.leftBy l cause) c where
  idle r := (KeepsOrLosesWaiters.of_same (State.afterLeaseLeft_waiter (t.lostHolder l) _ _)).not_waitsFor (h.idle r)
  holder r i hi := h.holder r i (State.holder_of_leftBy hi).1

theorem doWork (h : s.KeepsOrLosesHoldings t c) (w : Work) : s.KeepsOrLosesHoldings (doWork w t).1 c := by
  have waiters := doWork_waiters w t
  cases w with
  | pass r => exact h.grantPass r
  | check r => exact h
  | recallLease i reason grace =>
    refine h.of_holders waiters fun r => ?_
    simp only [Machine.doWork, State.recallLease]
    split
    · rfl
    · split_ifs <;> rfl
  | endLease i cause =>
    simp only [Machine.doWork, State.endLeaseStep]
    split
    · exact h
    · split
      · exact h.leftBy _ cause
      · exact h
  | freeSlot i cause => exact h.of_holders waiters fun r => by simp [Machine.doWork]
  | starvedFrom index => simp only [Machine.doWork]; split <;> exact h
  | endHolding r d cause => simp only [Machine.doWork]; split <;> exact h
  | removeWaiting r d o =>
    refine h.of_holders waiters fun k => ?_
    simp only [Machine.doWork, State.removeWaitingStep]
    split
    · rfl
    · split
      · rfl
      · exact State.freeWaiter_holders (t.giveBack d 2) _ o k

theorem run (h : s.KeepsOrLosesHoldings t c) (work : List Work) : s.KeepsOrLosesHoldings (t.run work) c :=
  t.run_keeps (fun u => s.KeepsOrLosesHoldings u c) (fun w _ hu => hu.doWork w) work h

end State.KeepsOrLosesHoldings

theorem State.run_holder {s : State} {c : Client} (idle : ∀ r, ¬ s.waitsFor r c) (work : List Work) {r : ResourceId}
    {i : LeaseSlot} (h : ((s.run work).resource r).holder c = some i) : (s.resource r).holder c = some i :=
  (State.KeepsOrLosesHoldings.run ⟨idle, fun _ _ h => h⟩ work).holder r i h

/-! ### Lists of items, one after another -/

/-- Of a list of items the first is done with all it sets off before the others. -/
theorem State.run_cons (s : State) (w : Work) {work : List Work} (h : work.length ≤ 11) :
    s.run (w :: work) = (s.run [w]).run work := s.run_append (first := [w]) (by simp; omega)

/-- A property that one item of each resource brings about in turn, and that later items keep. -/
theorem State.run_each {P : State → Prop} {Q : ResourceId → State → Prop} {item : ResourceId → Work}
    (does : ∀ s r, P s → P (s.run [item r]) ∧ Q r (s.run [item r]))
    (keeps : ∀ s r k, P s → Q k s → Q k (s.run [item r])) (s : State) (hs : P s) :
    P (s.run (resourceIds.map item)) ∧ ∀ r, Q r (s.run (resourceIds.map item)) := by
  have key : ∀ rs : List ResourceId, rs.length ≤ 12 → ∀ s, P s →
      P (s.run (rs.map item)) ∧ ∀ k, Q k s ∨ k ∈ rs → Q k (s.run (rs.map item)) := by
    intro rs
    induction rs with
    | nil => exact fun _ s hs => by simpa using hs
    | cons r rs ih =>
      intro hl s hs
      rw [List.length_cons] at hl
      rw [List.map_cons, s.run_cons _ (by rw [List.length_map]; omega)]
      obtain ⟨hs', hr⟩ := does s r hs
      obtain ⟨hp, hall⟩ := ih (by omega) _ hs'
      refine ⟨hp, fun k hk => hall k ?_⟩
      rcases hk with hk | hk
      · exact .inl (keeps s r k hs hk)
      · rcases List.mem_cons.1 hk with rfl | hk
        · exact .inl hr
        · exact .inr hk
  obtain ⟨hp, hall⟩ := key resourceIds (by decide) s hs
  exact ⟨hp, fun r => hall r (.inr (mem_resourceIds r))⟩

end Sys2Proof.Machine
end

section
/-!
SUPPORT. The two steps of a session end, item by item: the removal of a client's waiter and the end of its lease on each
resource (R73, R117, R120).
-/

namespace Sys2Proof.Machine

variable {s : State} {c : Client} {r : ResourceId}

/-! ### The removal of a waiter (R73) -/

/-- Where the client does not wait for the resource, nothing is removed. -/
theorem State.run_removeWaiting_of_not (hq : s.QueuesAgree) (h : ¬ s.waitsFor r c) (o : Outcome) :
    s.run [.removeWaiting r c o] = s := by
  have nothing : doWork (.removeWaiting r c o) s = (s, []) := by
    simp [doWork, State.removeWaitingStep, State.waitingSlot_of_waits_not hq fun j hj => h ⟨j, hj⟩]
  rw [State.run_single (by rw [nothing]), nothing]

/-- The state in which the waiter in slot `j` has been removed, its two reservations returned (R73). -/
def State.withdrawn (s : State) (j : WaiterSlot) (w : Waiter) (o : Outcome) : State :=
  (s.setBox w.client ((s.box w.client).giveBack 2)).freeWaiter j o

/-- What the end of a waiter sets off: where it was the head, the others may move up (R56). -/
def State.movingUp (s : State) (j : WaiterSlot) (w : Waiter) : List Work :=
  if (s.resource w.resource).queue.head? = some j then [.check w.resource, .pass w.resource] else []

theorem State.movingUp_cases (s : State) (j : WaiterSlot) (w : Waiter) :
    s.movingUp j w = [] ∨ s.movingUp j w = [.check w.resource, .pass w.resource] := by
  unfold State.movingUp
  split
  · exact .inr rfl
  · exact .inl rfl

/-- Where it does, its waiter goes, and others may move up. -/
theorem State.run_removeWaiting {j : WaiterSlot} {w : Waiter} (hq : s.QueuesAgree) (h1 : s.OneClaimLaw)
    (hw : s.waiter j = some w) (o : Outcome) :
    s.run [.removeWaiting w.resource w.client o] = (s.withdrawn j w o).run (s.movingUp j w) := by
  rw [State.run_item, doWork_removeWaiting hq h1 hw]
  rfl

/-- The client has no other waiter for the resource (R30). -/
theorem State.withdrawn_not_waitsFor {j : WaiterSlot} {w : Waiter} (h1 : s.OneClaimLaw) (hw : s.waiter j = some w)
    (o : Outcome) : ¬ (s.withdrawn j w o).waitsFor w.resource w.client := by
  rintro ⟨k, v, hv, e⟩
  have hv : (s.withdrawn j w o).waiter k = some v := hv
  rw [State.withdrawn, State.freeWaiter_waiter] at hv
  split at hv
  · cases hv
  · rename_i other
    exact other ((h1 _ _ j ⟨w, hw, rfl, rfl⟩).2 k ⟨v, hv, e⟩)

theorem State.Working.withdrawn (h : s.Working []) (j : WaiterSlot) (w : Waiter) (o : Outcome) :
    (s.withdrawn j w o).Working [] := (h.of_tables (t := s.setBox w.client _) rfl).freeWaiter j o

theorem State.Working.run_removeWaiting_none (h : s.Working []) (r : ResourceId) (c : Client) (o : Outcome) :
    ¬ (s.run [.removeWaiting r c o]).waitsFor r c := by
  by_cases waits : s.waitsFor r c
  · obtain ⟨j, w, hw, rfl, rfl⟩ := waits
    rw [State.run_removeWaiting h.queues h.oneClaim hw]
    exact (State.run_waiters _ _).not_waitsFor (State.withdrawn_not_waitsFor h.oneClaim hw o)
  · exact (s.run_waiters _).not_waitsFor waits

/-- Step 1 leaves the client waiting for nothing. -/
theorem State.Working.removeWaiters (h : s.Working []) (c : Client) (o : Outcome) :
    (s.removeWaiters c o).Working [] ∧ ∀ r, ¬ (s.removeWaiters c o).waitsFor r c :=
  State.run_each (P := fun u => u.Working []) (Q := fun r u => ¬ u.waitsFor r c)
    (fun _ r hu => ⟨eventInvariant_working.run (by simp) hu, hu.run_removeWaiting_none r c o⟩)
    (fun u _ _ _ hk => (u.run_waiters _).not_waitsFor hk) s h

/-! ### The end of a holding (R117, R120) -/

theorem State.run_endHolding_of_none (h : (s.resource r).holder c = none) (cause : EndCause) :
    s.run [.endHolding r c cause] = s := by
  have nothing : doWork (.endHolding r c cause) s = (s, []) := by simp only [doWork, Resource.holders_get, h]
  rw [State.run_single (by rw [nothing]), nothing]

theorem State.run_endHolding {i : LeaseSlot} (h : (s.resource r).holder c = some i) (cause : EndCause) :
    s.run [.endHolding r c cause] = s.run [.endLease i cause] := by
  have ends : doWork (.endHolding r c cause) s = (s, [.endLease i cause]) := by
    simp only [doWork, Resource.holders_get, h]
  rw [State.run_item, ends]

/-- The grant pass, if any, that follows when a lease has left its resource (R9 to R11). -/
def State.passesAfter (s : State) (l : Lease) (cause : EndCause) : List Work :=
  ((s.lostHolder l).afterLeaseLeft l.resource cause).2

theorem State.passesAfter_cases (s : State) (l : Lease) (cause : EndCause) :
    s.passesAfter l cause = [] ∨ s.passesAfter l cause = [.pass l.resource] :=
  (s.lostHolder l).afterLeaseLeft_work l.resource cause

theorem State.passesAfter_length (s : State) (l : Lease) (cause : EndCause) : (s.passesAfter l cause).length ≤ 1 := by
  rcases s.passesAfter_cases l cause with e | e <;> simp [e]

/-- The end of a lease: it leaves its resource, a grant pass may follow, its slot is freed, and the passes of the starved
resources follow (R9 to R11, R27, R65). -/
theorem State.run_endLease {i : LeaseSlot} {l : Lease} (hl : s.lease i = some l)
    (hs : (s.resource l.resource).holder l.holder = some i) (cause : EndCause) : s.run [.endLease i cause]
      = (((s.leftBy l cause).run (s.passesAfter l cause)).freeLease i cause).run [.starvedFrom 0] := by
  have few := s.passesAfter_length l cause
  have item : doWork (.endLease i cause) s
      = (s.leftBy l cause, s.passesAfter l cause ++ [.freeSlot i cause, .starvedFrom 0]) := doWork_endLease hl hs cause
  rw [State.run_item, item, State.run_append _ (by simp; omega), State.run_cons _ _ (by simp),
    State.run_single (w := .freeSlot i cause) rfl]
  rfl

theorem State.Working.run_endHolding_none (h : s.Working []) (idle : ∀ r, ¬ s.waitsFor r c) (r : ResourceId)
    (cause : EndCause) : ((s.run [.endHolding r c cause]).resource r).holder c = none := by
  rw [Option.eq_none_iff_forall_ne_some]
  intro k hk
  cases hi : (s.resource r).holder c with
  | none =>
    rw [State.run_endHolding_of_none hi, hi] at hk
    cases hk
  | some i =>
    obtain ⟨l, hl, rfl, rfl⟩ := h.named r c i hi
    rw [State.run_endHolding hi, State.run_item, doWork_endLease hl hi] at hk
    have left : s.KeepsOrLosesHoldings (s.leftBy l cause) l.holder := .leftBy ⟨idle, fun _ _ h => h⟩ l cause
    exact (State.holder_of_leftBy (State.run_holder left.idle _ hk)).2 ⟨rfl, rfl⟩

/-- Step 2 leaves a client that waits for nothing in no holder set, and waiting for nothing. -/
theorem State.Working.endLeases (h : s.Working []) (idle : ∀ r, ¬ s.waitsFor r c) (cause : EndCause) :
    ((s.endLeases c cause).Working [] ∧ ∀ r, ¬ (s.endLeases c cause).waitsFor r c) ∧
      ∀ r, ((s.endLeases c cause).resource r).holder c = none := by
  refine State.run_each (P := fun u => u.Working [] ∧ ∀ r, ¬ u.waitsFor r c)
    (Q := fun r u => (u.resource r).holder c = none) (fun u r ⟨hu, hi⟩ => ?_) (fun u r k ⟨_, hi⟩ hk => ?_) s ⟨h, idle⟩
  · exact ⟨⟨eventInvariant_working.run (by simp) hu, fun k => (u.run_waiters _).not_waitsFor (hi k)⟩,
      hu.run_endHolding_none hi r cause⟩
  · rw [Option.eq_none_iff_forall_ne_some]
    intro i e
    rw [State.run_holder hi _ e] at hk
    cases hk

/-- With no work left, a client in no holder set has no lease, and one that waits for nothing has no waiter. -/
theorem State.Working.lease_holder_ne (h : s.Working []) (free : ∀ r, (s.resource r).holder c = none) (i : LeaseSlot)
    (l : Lease) (hl : s.lease i = some l) : l.holder ≠ c := by
  rintro rfl
  have stands := (h.standing l.resource l.holder i ⟨l, hl, rfl, rfl⟩).resolve_right (by simp)
  rw [free] at stands
  cases stands

/-! ### What the end of a session leaves (R112, R117, R120, R143) -/

/-- A client without leases and waiters has both counts at 0 (R111). -/
theorem State.CountLaw.none (h : s.CountLaw) (leases : ∀ i l, s.lease i = some l → l.holder ≠ c)
    (waiters : ∀ j w, s.waiter j = some w → w.client ≠ c) :
    (s.session c).leaseCount = 0 ∧ (s.session c).waiterCount = 0 := by
  obtain ⟨hl, hw⟩ := h c
  rw [hl, hw, List.countP_eq_zero, List.countP_eq_zero]
  refine ⟨fun i _ => ?_, fun j _ => ?_⟩
  · cases hi : s.lease i with
    | none => simp
    | some l => simpa using leases i l hi
  · cases hj : s.waiter j with
    | none => simp
    | some w => simpa using waiters j w hj

/-- A context is its fields. -/
theorem Session.eq_of_fields {x y : Session} (isOpen : x.isOpen = y.isOpen) (epoch : x.epoch = y.epoch)
    (lastEnd : x.lastEnd = y.lastEnd) (admin : x.admin = y.admin) (threshold : x.threshold = y.threshold)
    (leaseCount : x.leaseCount = y.leaseCount) (waiterCount : x.waiterCount = y.waiterCount) : x = y := by
  cases x; cases y; simp_all

/-- The contexts of all clients keep all but their counts through both steps of a session end. -/
theorem State.endLeases_session (s : State) (c d : Client) (o : Outcome) (cause : EndCause) :
    ((s.removeWaiters c o).endLeases c cause).session d = { s.session d with
      leaseCount := (((s.removeWaiters c o).endLeases c cause).session d).leaseCount
      waiterCount := (((s.removeWaiters c o).endLeases c cause).session d).waiterCount } := by
  apply Session.eq_of_fields <;> simp [State.endLeases, State.removeWaiters]

/-- The event that ends client `c`'s session leaves the session ended. -/
theorem State.Working.sessionLeft (h : s.Working []) (c : Client) (o : Outcome) (cause : EndCause) (e : SessionEnd) :
    s.SessionLeft (s.endSession c o cause e).1.endEvent c e := by
  obtain ⟨hw, idle⟩ := h.removeWaiters c o
  obtain ⟨⟨ht, idle⟩, free⟩ := hw.endLeases idle cause
  have same : (s.endSession c o cause e).1 = ((s.removeWaiters c o).endLeases c cause).closeContext c e := rfl
  have session := fun d => s.endLeases_session c d o cause
  rw [same]
  generalize (s.removeWaiters c o).endLeases c cause = t at *
  have leases := ht.lease_holder_ne free
  have waiters : ∀ j w, t.waiter j = some w → w.client ≠ c := fun j w hj e => idle w.resource ⟨j, w, hj, rfl, e⟩
  obtain ⟨noLease, noWaiter⟩ := ht.counts.none leases waiters
  refine ⟨?_, leases, waiters, ?_, fun r => ?_, fun d hd => ?_⟩
  · simp only [State.closeContext_eq, State.endEvent_session, State.setSession_session_self]
    rw [session c, noLease, noWaiter]
  · simp [State.closeContext_eq]
  · have line : (t.closeContext c e).endEvent.line r c = t.endEvent.line r c := rfl
    have unheld := mt (ht.lines r c).1 (by simp [free])
    rw [line, State.endEvent_line]
    simpa [or_comm] using unheld
  · simp only [State.closeContext_eq, State.endEvent_session, State.setSession_session_of_ne _ _ _ _ hd,
      State.setBox_session]
    rw [session d]
    simp

end Sys2Proof.Machine
end

section
/-!
SUPPORT. A session end where no resource is preemptible recalls nobody (R81, R82): the grant passes it sets off give free
lease slots to other clients' waiters and touch nothing of the departing client, so each of its waiters and leases ends
once, with the session end's own outcome and cause (R27, R56, R73).
-/

namespace Sys2Proof.Machine

/-! ### What grants to other clients spare -/

/-- From `s` to `t` no slot has been freed, and of client `c` no lease and no waiter has come or gone. -/
structure State.Spares (s t : State) (c : Client) : Prop where
  slot : ∀ i, (t.leaseRecord i).incarnation = (s.leaseRecord i).incarnation ∧
    (t.leaseRecord i).prevEnd = (s.leaseRecord i).prevEnd
  kept : ∀ i l, s.lease i = some l → t.lease i = some l
  gained : ∀ i l, t.lease i = some l → l.holder = c → s.lease i = some l
  waiter : ∀ j, (∀ w, s.waiter j = some w → w.client = c) → t.waiterRecord j = s.waiterRecord j
  leaseCount : (t.session c).leaseCount = (s.session c).leaseCount

namespace State.Spares

variable {s t u : State} {c : Client}

theorem of_same (leases : ∀ i, t.leaseRecord i = s.leaseRecord i) (waiters : ∀ j, t.waiterRecord j = s.waiterRecord j)
    (session : t.session c = s.session c) : s.Spares t c where
  slot i := by simp [leases]
  kept i l hl := by rwa [State.lease, leases]
  gained i l hl _ := by rwa [State.lease, leases] at hl
  waiter j _ := waiters j
  leaseCount := by rw [session]

theorem refl (s : State) (c : Client) : s.Spares s c := of_same (fun _ => rfl) (fun _ => rfl) rfl

theorem trans (h : s.Spares t c) (h' : t.Spares u c) : s.Spares u c where
  slot i := ⟨(h'.slot i).1.trans (h.slot i).1, (h'.slot i).2.trans (h.slot i).2⟩
  kept i l hl := h'.kept i l (h.kept i l hl)
  gained i l hl hc := h.gained i l (h'.gained i l hl hc) hc
  waiter j hj := by
    have same := h.waiter j hj
    exact (h'.waiter j fun w hw => hj w (by rwa [State.waiter, same] at hw)).trans same
  leaseCount := h'.leaseCount.trans h.leaseCount

/-- A lease's record is the same record. -/
theorem leaseRecord (h : s.Spares t c) {i : LeaseSlot} {l : Lease} (hl : s.lease i = some l) :
    t.leaseRecord i = s.leaseRecord i := by
  obtain ⟨inc, prev⟩ := h.slot i
  have lease : (t.leaseRecord i).lease = (s.leaseRecord i).lease := (h.kept i l hl).trans hl.symm
  cases e : t.leaseRecord i
  cases e' : s.leaseRecord i
  simp_all

/-- A grant to another client takes a free slot and that client's waiter (R63). -/
theorem grantWaiter {j : WaiterSlot} {w : Waiter} {i : LeaseSlot} (hw : s.waiter j = some w) (hc : w.client ≠ c)
    (hi : s.lease i = none) : s.Spares (s.grantWaiter j w i) c where
  slot k := by
    rw [State.grantWaiter_leaseRecord]
    split
    · subst k; exact ⟨rfl, rfl⟩
    · exact ⟨rfl, rfl⟩
  kept k l hl := by
    have : k ≠ i := by rintro rfl; rw [hi] at hl; cases hl
    rwa [State.lease, State.grantWaiter_leaseRecord, if_neg this]
  gained k l hl hh := by
    rw [State.lease, State.grantWaiter_leaseRecord] at hl
    split at hl
    · cases hl; exact absurd hh hc
    · exact hl
  waiter k hk := by
    have : k ≠ j := by rintro rfl; exact hc (hk w hw)
    rw [State.grantWaiter_waiterRecord i k hw, if_neg this]
  leaseCount := by
    have := (State.granted hw i).frame.sessions c (by simpa using hc.symm)
    exact congrArg Session.leaseCount this

/-- A walk over waiters of other clients. -/
theorem walkQueue (r : ResourceId) (queue : List WaiterSlot) (s : State) (n : Nat)
    (others : ∀ j ∈ queue, ∀ w, s.waiter j = some w → w.client ≠ c) : s.Spares (walkQueue r queue s n).state c := by
  induction queue generalizing s n with
  | nil => exact refl s c
  | cons j queue ih =>
    unfold Machine.walkQueue
    split
    · exact refl s c
    · rename_i w hw
      split
      · split
        · exact refl s c
        · rename_i i hi
          have granted := grantWaiter hw (others j (by simp) w hw) (State.freeLeaseSlot_free hi)
          refine granted.trans (ih _ _ fun k hk v hv => ?_)
          exact others k (by simp [hk]) v (KeepsOrLosesWaiters.grantWaiter s j w i k v hv)
      · exact refl s c

/-- A grant pass for a resource that the client does not wait for. -/
theorem grantPass (hq : s.QueuesAgree) {r : ResourceId} (h : ¬ s.waitsFor r c) : s.Spares (s.grantPass r).1 c := by
  have walk : s.Spares (s.passWalk r).state c := by
    unfold State.passWalk
    split
    · refine walkQueue r _ s 0 fun j hj w hw hc => h ⟨j, w, hw, ?_, hc⟩
      obtain ⟨v, hv, hr⟩ := ((hq r).2 j).1 hj
      cases hw.symm.trans hv
      exact hr
    · exact refl s c
  exact walk.trans (of_same (fun _ => rfl) (fun _ => rfl) rfl)

/-- A lease leaves its resource; its slot is not freed yet. -/
theorem leftBy (s : State) (l : Lease) (cause : EndCause) (c : Client) : s.Spares (s.leftBy l cause) c :=
  of_same (s.leftBy_leaseRecord l cause) (fun j => (s.leftBy_within l cause).waiters j (by simp))
    (s.leftBy_session l cause c)

end State.Spares

/-! ### Work that recalls nobody and ends nothing -/

/-- No resource is preemptible. -/
def State.Quiet (s : State) : Prop := ∀ r, (s.resource r).config.preemptible = false

theorem State.Quiet.doWork {s : State} (h : s.Quiet) (w : Work) : (doWork w s).1.Quiet :=
  fun r => (congrArg ResourceConfig.preemptible ((kept_config r).doWork w s)).trans (h r)

theorem State.Quiet.run {s : State} (h : s.Quiet) (work : List Work) : (s.run work).Quiet :=
  s.run_keeps State.Quiet (fun w _ hu => hu.doWork w) work h

theorem State.Quiet.withdrawn {s : State} (h : s.Quiet) (j : WaiterSlot) (w : Waiter) (o : Outcome) :
    (s.withdrawn j w o).Quiet := fun r =>
  (congrArg ResourceConfig.preemptible ((kept_config r).freeWaiter (s.setBox w.client _) j o)).trans (h r)

/-- A grant pass or a check that does not concern client `c`, or the passes of the starved resources when `c` waits for
nothing. -/
def Work.Passes (s : State) (c : Client) : Work → Prop
  | .pass r => ¬ s.waitsFor r c
  | .check _ => True
  | .starvedFrom _ => ∀ r, ¬ s.waitsFor r c
  | _ => False

theorem Work.Passes.mono {s t : State} {c : Client} (h : s.KeepsOrLosesWaiters t) {w : Work} (hw : w.Passes s c) :
    w.Passes t c := by
  cases w <;> simp only [Work.Passes] at hw ⊢
  · exact h.not_waitsFor hw
  · exact fun r => h.not_waitsFor (hw r)

/-- Such items set off such items alone, and spare the client. -/
theorem Work.Passes.doWork {s : State} {c : Client} {w : Work} (hw : w.Passes s c) (hq : s.QueuesAgree)
    (quiet : s.Quiet) : s.Spares (doWork w s).1 c ∧ ∀ v ∈ (doWork w s).2, v.Passes (doWork w s).1 c := by
  cases w with
  | pass r =>
    refine ⟨.grantPass hq hw, fun v hv => ?_⟩
    simp only [Machine.doWork, State.grantPass] at hv
    split at hv
    · rw [List.mem_singleton.1 hv]; trivial
    · cases hv
  | check r =>
    rw [doWork_check_nobody (.inr (quiet r))]
    exact ⟨.refl s c, nofun⟩
  | starvedFrom n =>
    simp only [Machine.doWork]
    split
    · exact ⟨.refl s c, nofun⟩
    · refine ⟨.refl s c, fun v hv => ?_⟩
      rcases List.mem_pair.1 hv with rfl | rfl
      · exact hw _
      · exact hw
  | _ => exact hw.elim

/-- A list of such items spares the client, whatever work stands behind it. -/
theorem State.Spares.run {s : State} {c : Client} {work rest : List Work} (hl : work.length ≤ 12)
    (h : s.Working (work ++ rest)) (quiet : s.Quiet) (passes : ∀ w ∈ work, w.Passes s c) :
    s.Spares (s.run work) c ∧ (s.run work).Working rest := by
  have done := State.run_done
    (P := fun work t => t.Working (work ++ rest) ∧ t.Quiet ∧ (∀ w ∈ work, w.Passes t c) ∧ s.Spares t c)
    (fun w left t ⟨working, quiet, passes, spared⟩ => ?_) hl ⟨h, quiet, passes, .refl s c⟩
  · exact ⟨done.2.2.2, done.1⟩
  · obtain ⟨spares, setOff⟩ := (passes w (by simp)).doWork working.queues quiet
    refine ⟨?_, quiet.doWork w, fun v hv => ?_, spared.trans spares⟩
    · rw [List.append_assoc]
      exact working.item w (left ++ rest) t
    · rcases List.mem_append.1 hv with hv | hv
      · exact setOff v hv
      · exact (passes v (by simp [hv])).mono (doWork_waiters w t)

end Sys2Proof.Machine
end

section
/-!
SUPPORT. The slots of a client whose session ends where no resource is preemptible: each of its leases ends once, with the
session end's cause, and each of its waiters once, with its outcome (R27, R56, R73, R117, R120).
-/

namespace Sys2Proof.Machine

/-- From `s` to `t` client `c` has got no lease and no waiter. Each lease that it had stands as it did or has ended once,
with cause `cause`, each waiter with outcome `o`; no other slot has been freed. -/
structure State.EndsOnce (s t : State) (c : Client) (o : Outcome) (cause : EndCause) : Prop where
  lease : ∀ i l, s.lease i = some l → l.holder = c → t.leaseRecord i = s.leaseRecord i ∨
    ((t.leaseRecord i).incarnation = (s.leaseRecord i).incarnation + 1 ∧ (t.leaseRecord i).prevEnd = some cause ∧
      ∀ l', t.lease i = some l' → l'.holder ≠ c)
  otherLease : ∀ i, (∀ l, s.lease i = some l → l.holder ≠ c) →
    (t.leaseRecord i).incarnation = (s.leaseRecord i).incarnation ∧
      (t.leaseRecord i).prevEnd = (s.leaseRecord i).prevEnd ∧ ∀ l', t.lease i = some l' → l'.holder ≠ c
  waiter : ∀ j w, s.waiter j = some w → w.client = c → t.waiterRecord j = s.waiterRecord j ∨
    t.waiterRecord j = ⟨(s.waiterRecord j).incarnation + 1, some o, none⟩
  freeWaiter : ∀ j, s.waiter j = none → t.waiterRecord j = s.waiterRecord j

namespace State.EndsOnce

variable {s t u : State} {c : Client} {o : Outcome} {cause : EndCause}

theorem of_spares (h : s.Spares t c) : s.EndsOnce t c o cause where
  lease i l hl _ := .inl (h.leaseRecord hl)
  otherLease i hi := ⟨(h.slot i).1, (h.slot i).2, fun l' hl' hc => hi l' (h.gained i l' hl' hc) hc⟩
  waiter j w hw hc := .inl (h.waiter j fun v hv => by cases hw.symm.trans hv; exact hc)
  freeWaiter j hj := h.waiter j fun w hw => by rw [hj] at hw; cases hw

theorem trans (h : s.EndsOnce t c o cause) (h' : t.EndsOnce u c o cause) : s.EndsOnce u c o cause where
  lease i l hl hc := by
    rcases h.lease i l hl hc with same | ⟨inc, prev, gone⟩
    · rcases h'.lease i l (by rwa [State.lease, same]) hc with same' | ended
      · exact .inl (same'.trans same)
      · exact .inr (by rwa [same] at ended)
    · obtain ⟨inc', prev', gone'⟩ := h'.otherLease i gone
      exact .inr ⟨inc'.trans inc, prev'.trans prev, gone'⟩
  otherLease i hi := by
    obtain ⟨inc, prev, gone⟩ := h.otherLease i hi
    obtain ⟨inc', prev', gone'⟩ := h'.otherLease i gone
    exact ⟨inc'.trans inc, prev'.trans prev, gone'⟩
  waiter j w hw hc := by
    rcases h.waiter j w hw hc with same | ended
    · rcases h'.waiter j w (by rwa [State.waiter, same]) hc with same' | ended
      · exact .inl (same'.trans same)
      · exact .inr (by rwa [same] at ended)
    · exact .inr ((h'.freeWaiter j (by rw [State.waiter, ended])).trans ended)
  freeWaiter j hj := by
    have same := h.freeWaiter j hj
    exact (h'.freeWaiter j (by rwa [State.waiter, same])).trans same

/-- The removal of a waiter of the client (R73). -/
theorem withdrawn {j : WaiterSlot} {w : Waiter} (hw : s.waiter j = some w) (o : Outcome) (cause : EndCause) :
    s.EndsOnce (s.withdrawn j w o) w.client o cause := by
  have leases : ∀ i, (s.withdrawn j w o).leaseRecord i = s.leaseRecord i := State.freeWaiter_leaseRecord _ j o
  have record : ∀ k, (s.withdrawn j w o).waiterRecord k
      = if k = j then ⟨(s.waiterRecord j).incarnation + 1, some o, none⟩ else s.waiterRecord k :=
    State.freeWaiter_waiterRecord (s.setBox w.client _) j o hw
  refine ⟨fun i _ _ _ => .inl (leases i), fun i hi => ?_, fun k _ _ _ => ?_, fun k hk => ?_⟩
  · rw [State.lease, leases]
    exact ⟨rfl, rfl, hi⟩
  · rw [record]
    split
    · subst k; exact .inr rfl
    · exact .inl rfl
  · rw [record, if_neg]
    rintro rfl
    rw [hk] at hw
    cases hw

/-- The freeing of a slot of the client (R27). -/
theorem freeLease {i : LeaseSlot} {l : Lease} (hl : s.lease i = some l) (hs : s.stands i l = false) (o : Outcome)
    (cause : EndCause) : s.EndsOnce (s.freeLease i cause) l.holder o cause := by
  have record := State.freeLease_leaseRecord cause hl hs
  refine ⟨fun k _ _ _ => ?_, fun k hk => ?_, fun j _ _ _ => .inl (s.freeLease_waiterRecord i cause j),
    fun j _ => s.freeLease_waiterRecord i cause j⟩
  · rw [State.lease, record]
    split
    · subst k; exact .inr ⟨rfl, rfl, nofun⟩
    · exact .inl rfl
  · have other : k ≠ i := by rintro rfl; exact hk l hl rfl
    rw [State.lease, record, if_neg other]
    exact ⟨rfl, rfl, hk⟩

/-! ### The two steps of a session end -/

theorem withdrawn_leaseCount {j : WaiterSlot} {w : Waiter} (hw : s.waiter j = some w) (o : Outcome) :
    ((s.withdrawn j w o).session w.client).leaseCount = (s.session w.client).leaseCount := by
  have session : (s.withdrawn j w o).session w.client = (s.session w.client).loseWaiter :=
    (State.freeWaiter_session (s.setBox w.client _) j o hw w.client).trans (if_pos rfl)
  rw [session]
  rfl

/-- The removal of the client's waiter on one resource, with the grants it sets off (R56, R73). -/
theorem run_removeWaiting (h : s.Working []) (quiet : s.Quiet) (r : ResourceId) (c : Client) (o : Outcome)
    (cause : EndCause) : s.EndsOnce (s.run [.removeWaiting r c o]) c o cause ∧
      ((s.run [.removeWaiting r c o]).session c).leaseCount = (s.session c).leaseCount := by
  by_cases waits : s.waitsFor r c
  · obtain ⟨j, w, hw, rfl, rfl⟩ := waits
    have gone := State.withdrawn_not_waitsFor h.oneClaim hw o
    have passes : (s.movingUp j w).length ≤ 2 ∧ ∀ v ∈ s.movingUp j w, v.Passes (s.withdrawn j w o) w.client := by
      rcases s.movingUp_cases j w with e | e <;> rw [e]
      · exact ⟨by simp, nofun⟩
      · refine ⟨by simp, fun v hv => ?_⟩
        rcases List.mem_pair.1 hv with rfl | rfl
        · trivial
        · exact gone
    obtain ⟨spares, -⟩ := State.Spares.run (rest := []) (by omega)
      (eventInvariant_working.start _ _ (h.withdrawn j w o)) (quiet.withdrawn j w o) passes.2
    rw [State.run_removeWaiting h.queues h.oneClaim hw]
    exact ⟨(withdrawn hw o cause).trans (of_spares spares), spares.leaseCount.trans (withdrawn_leaseCount hw o)⟩
  · rw [State.run_removeWaiting_of_not h.queues waits]
    exact ⟨of_spares (.refl s c), rfl⟩

/-- The end of a lease of the client, with the grants it sets off (R9 to R11, R27, R65). -/
theorem run_endLease (h : s.Working []) (quiet : s.Quiet) {i : LeaseSlot} {l : Lease} (hl : s.lease i = some l)
    (hi : (s.resource l.resource).holder l.holder = some i) (idle : ∀ r, ¬ s.waitsFor r l.holder) (o : Outcome)
    (cause : EndCause) : s.EndsOnce (s.run [.endLease i cause]) l.holder o cause := by
  have item : doWork (.endLease i cause) s
      = (s.leftBy l cause, s.passesAfter l cause ++ [.freeSlot i cause, .starvedFrom 0]) := doWork_endLease hl hi cause
  have working := (eventInvariant_working.start [.endLease i cause] s h).endLease
  have calm := quiet.doWork (.endLease i cause)
  have away : s.KeepsOrLosesHoldings (s.leftBy l cause) l.holder := .leftBy ⟨idle, fun _ _ h => h⟩ l cause
  rw [item, List.append_nil] at working
  rw [item] at calm
  have few := s.passesAfter_length l cause
  obtain ⟨passed, working⟩ := State.Spares.run (c := l.holder) (by omega) working calm fun v hv => by
    rcases s.passesAfter_cases l cause with e | e <;> rw [e] at hv
    · cases hv
    · rw [List.mem_singleton.1 hv]; exact away.idle _
  have left : s.Spares ((s.leftBy l cause).run (s.passesAfter l cause)) l.holder := (Spares.leftBy s l cause _).trans passed
  have gone : ((s.leftBy l cause).run (s.passesAfter l cause)).stands i l = false := by
    rw [State.stands_eq_false]
    exact fun hk => (State.holder_of_leftBy (State.run_holder away.idle _ hk)).2 ⟨rfl, rfl⟩
  have freed := freeLease (left.kept i l hl) gone o cause
  have idle' := fun r => (State.run_waiters _ (s.passesAfter l cause)).not_waitsFor (away.idle r)
  have calm' := (calm.run (s.passesAfter l cause)).doWork (.freeSlot i cause)
  obtain ⟨starved, -⟩ := State.Spares.run (c := l.holder) (work := [.starvedFrom 0]) (rest := []) (by simp)
    working.freeSlot calm' fun v hv => by
      rw [List.mem_singleton.1 hv]
      exact fun r => (doWork_waiters (.freeSlot i cause) _).not_waitsFor (idle' r)
  rw [State.run_endLease hl hi]
  exact ((of_spares left).trans freed).trans (of_spares starved)

theorem run_endHolding (h : s.Working []) (quiet : s.Quiet) {c : Client} (idle : ∀ r, ¬ s.waitsFor r c) (r : ResourceId)
    (o : Outcome) (cause : EndCause) : s.EndsOnce (s.run [.endHolding r c cause]) c o cause := by
  cases hi : (s.resource r).holder c with
  | none => rw [State.run_endHolding_of_none hi]; exact of_spares (.refl s c)
  | some i =>
    obtain ⟨l, hl, rfl, rfl⟩ := h.named r c i hi
    rw [State.run_endHolding hi]
    exact run_endLease h quiet hl hi idle o cause

/-- Step 1 removes the client's waiters and lets its leases be. -/
theorem removeWaiters (h : s.Working []) (quiet : s.Quiet) (c : Client) (o : Outcome) (cause : EndCause) :
    s.EndsOnce (s.removeWaiters c o) c o cause ∧
      ((s.removeWaiters c o).session c).leaseCount = (s.session c).leaseCount := by
  have steps := State.run_each (Q := fun _ _ => True) (item := fun r => .removeWaiting r c o)
    (P := fun u => u.Working [] ∧ u.Quiet ∧ s.EndsOnce u c o cause ∧
      (u.session c).leaseCount = (s.session c).leaseCount)
    (fun u r ⟨working, calm, ended, count⟩ => ?_) (fun _ _ _ _ _ => trivial) s ⟨h, quiet, of_spares (.refl s c), rfl⟩
  · exact steps.1.2.2
  · obtain ⟨ends, same⟩ := run_removeWaiting working calm r c o cause
    exact ⟨⟨eventInvariant_working.run (by simp) working, calm.run _, ended.trans ends, same.trans count⟩, trivial⟩

/-- Step 2 ends the leases of a client that waits for nothing. -/
theorem endLeases (h : s.Working []) (quiet : s.Quiet) {c : Client} (idle : ∀ r, ¬ s.waitsFor r c) (o : Outcome)
    (cause : EndCause) : s.EndsOnce (s.endLeases c cause) c o cause := by
  have steps := State.run_each (Q := fun _ _ => True) (item := fun r => .endHolding r c cause)
    (P := fun u => u.Working [] ∧ u.Quiet ∧ (∀ r, ¬ u.waitsFor r c) ∧ s.EndsOnce u c o cause)
    (fun u r ⟨working, calm, idle, ended⟩ => ?_) (fun _ _ _ _ _ => trivial) s
    ⟨h, quiet, idle, of_spares (.refl s c)⟩
  · exact steps.1.2.2.2
  · exact ⟨⟨eventInvariant_working.run (by simp) working, calm.run _,
      fun k => (u.run_waiters _).not_waitsFor (idle k),
      ended.trans (run_endHolding working calm idle r o cause)⟩, trivial⟩

/-- With nothing of the client left, every lease and waiter that it had has ended. -/
theorem history (h : s.EndsOnce t c o cause) (leases : ∀ i l, t.lease i = some l → l.holder ≠ c)
    (waiters : ∀ j w, t.waiter j = some w → w.client ≠ c) : s.SessionHistory t c o cause where
  leases i l hl hc := by
    rcases h.lease i l hl hc with same | ⟨inc, prev, -⟩
    · exact absurd hc (leases i l (by rw [State.lease, same]; exact hl))
    · exact ⟨inc, prev⟩
  waiters j w hw hc := by
    rcases h.waiter j w hw hc with same | ended
    · exact absurd hc (waiters j w (by rw [State.waiter, same]; exact hw))
    · exact ended

end State.EndsOnce

/-- A session end that recalls nobody ends each lease and each waiter of the client once, and counts the leases as they
were when it began. -/
theorem State.Working.sessionHistory {s : State} (h : s.Working []) (quiet : s.Quiet) (c : Client) (o : Outcome)
    (cause : EndCause) (e : SessionEnd) : s.SessionHistory (s.endSession c o cause e).1.endEvent c o cause ∧
      (s.endSession c o cause e).2.1 = (s.session c).leaseCount := by
  obtain ⟨working, idle⟩ := h.removeWaiters c o
  obtain ⟨waiters, count⟩ := State.EndsOnce.removeWaiters h quiet c o cause
  have ended := waiters.trans (State.EndsOnce.endLeases working (quiet.run _) idle o cause)
  have left := h.sessionLeft c o cause e
  refine ⟨?_, count⟩
  have same : (s.endSession c o cause e).1 = ((s.removeWaiters c o).endLeases c cause).closeContext c e := rfl
  rw [same] at left ⊢
  generalize (s.removeWaiters c o).endLeases c cause = t at *
  obtain ⟨leases, waiters⟩ := ended.history left.leases left.waiters
  exact ⟨leases, waiters⟩

end Sys2Proof.Machine
end

section
/-! The commands that end a session: CLOSE_SESSION, EVICT_CLIENT and the teardown claim (R117, R120, R121, R123). -/

namespace Sys2Proof.Machine

variable {s t : State} {p c : Client} {q : Request} {o : Outcome} {cause : EndCause} {e : SessionEnd}

/-- An event begins with the laws that the tables and the lines keep. -/
theorem State.beginEvent_working (holders : s.HoldersAgree) (queues : s.QueuesAgree) (oneClaim : s.OneClaimLaw)
    (counts : s.CountLaw) (lines : s.LineLaw) : s.beginEvent.Working [] := by
  have laws : s.beginEvent.RecordLaws := ⟨holders, queues, oneClaim, counts, lines, rfl, [], [], rfl⟩
  exact laws.working

/-! ### Behind the event: the delivery test and the port -/

theorem State.SessionLeft.finish (h : s.SessionLeft t c e) (v : State) (p : Client) (x : Port) :
    s.SessionLeft (v.testHead (t.setPort p x)) c e := by
  obtain ⟨session, leases, waiters, box, lines, others⟩ := h
  exact ⟨by simpa using session, by simpa using leases, by simpa using waiters, by simpa using box, by simpa using lines,
    by simpa using others⟩

theorem State.SessionHistory.finish (h : s.SessionHistory t c o cause) (v : State) (p : Client) (x : Port) :
    s.SessionHistory (v.testHead (t.setPort p x)) c o cause := by
  obtain ⟨leases, waiters⟩ := h
  exact ⟨by simpa using leases, by simpa using waiters⟩

theorem Port.makeOffer_inFlight (x : Port) : x.makeOffer.inFlight = x.inFlight := by
  unfold Port.makeOffer
  split
  · rfl
  · split_ifs
    · rfl
    · split <;> rfl

theorem Port.offerTaken_inFlight (x : Port) : x.offerTaken.inFlight = x.inFlight := Port.makeOffer_inFlight _

/-- The end of a session leaves the ports and the counter as they are. -/
theorem State.endSession_port (s : State) (c : Client) (o : Outcome) (cause : EndCause) (e : SessionEnd) (p : Client) :
    (s.endSession c o cause e).1.port p = s.port p :=
  congrArg (fun ports => ports[p]) (keptByRequests_ports.endSession s c o cause e)

theorem State.endSession_now (s : State) (c : Client) (o : Outcome) (cause : EndCause) (e : SessionEnd) :
    (s.endSession c o cause e).1.now = s.now := keptByRequests_now.endSession s c o cause e

/-- The event of a session end, as it began in `s`. -/
theorem State.sessionEvent (h : s.beginEvent.Working []) (c : Client) (o : Outcome) (cause : EndCause) (e : SessionEnd) :
    s.SessionLeft (s.beginEvent.endSession c o cause e).1.endEvent c e ∧
      (s.Quiet → s.SessionHistory (s.beginEvent.endSession c o cause e).1.endEvent c o cause ∧
        (s.beginEvent.endSession c o cause e).2.1 = (s.session c).leaseCount) := by
  refine ⟨?_, fun quiet => ?_⟩
  · obtain ⟨session, leases, waiters, box, lines, others⟩ := h.sessionLeft c o cause e
    exact ⟨session, leases, waiters, box, lines, others⟩
  · obtain ⟨⟨leases, waiters⟩, count⟩ := h.sessionHistory quiet c o cause e
    exact ⟨⟨leases, waiters⟩, count⟩

/-- A request that ends client `c`'s session and answers with its counts. -/
theorem State.Serving.ends_session {k : Kind} (hs : s.Serving p q k) (h : s.beginEvent.Working [])
    (hb : k.body p q.params s.beginEvent
      = (⟨.ok, [natByte (s.beginEvent.endSession c o cause e).2.1, natByte (s.beginEvent.endSession c o cause e).2.2]⟩,
          (s.beginEvent.endSession c o cause e).1)) :
    ∃ t, Machine.exec (k.command p) s = .next t ∧ s.SessionLeft t c e ∧
      (∃ n : Nat, (t.port p).inFlight = (s.port p).inFlight
          ++ [⟨q.stamp, q.tag, q.kind, .ok, s.now, [natByte n, natByte (s.session c).waiterCount]⟩] ∧
        (s.Quiet → n = (s.session c).leaseCount)) ∧
      (s.Quiet → s.SessionHistory t c o cause) := by
  obtain ⟨left, history⟩ := State.sessionEvent h c o cause e
  refine ⟨_, hs.exec_body hb, left.finish s p _, ⟨_, ?_, fun quiet => (history quiet).2⟩,
    fun quiet => (history quiet).1.finish s p _⟩
  simp only [State.testHead_port, State.answer_port, if_true, Port.offerTaken_inFlight, State.endEvent_port,
    State.endSession_port, State.endEvent_now, State.endSession_now]
  rfl

/-- Settles O10: steps 1 and 2 leave the client no waiter and no lease, and with nothing to be recalled each of them ends
once; step 3 empties the notice queue and step 4 closes the context. -/
theorem sessionEndLeavesNothing : Obligations.SessionEndLeavesNothing := by
  intro p q s holders queues oneClaim counts lines
  have working := State.beginEvent_working holders queues oneClaim counts lines
  refine ⟨fun hs => hs.ends_session (k := .closeSession) working rfl, fun c hs hc hopen => ?_, fun ho hopen => ?_⟩
  · exact hs.ends_session (k := .evictClient) working (evictClientBody_of_open (s := s.beginEvent) hc hopen)
  · obtain ⟨left, history⟩ := State.sessionEvent working p .tornDown .tornDown .portReset
    refine ⟨_, exec_teardownClaim_of_open ho hopen, left.finish s p _, ?_, fun quiet => (history quiet).1.finish s p _⟩
    rw [State.testHead_port, State.setPort_port_self, Port.offerTaken_inFlight]

end Sys2Proof.Machine
end

section
/-! OPEN_SESSION and SET_RIGHTS (R114, R115, R126), and the claims that do not stand (R121). -/

namespace Sys2Proof.Machine

variable {s : State} {p c : Client} {q : Request}

/-! ### OPEN_SESSION (R114, R115) -/

theorem openSessionBody_of_open {params : List Byte} (h : (s.session p).isOpen = true) : openSessionBody p params s
    = (⟨.sessionOpen, natByte p.val :: halfBytes (s.session p).epoch ++ [yesNo (s.session p).admin]⟩, s) := by
  simp [openSessionBody, h]

theorem openSessionBody_of_closed {params : List Byte} (h : (s.session p).isOpen = false) : openSessionBody p params s
    = (⟨.ok, natByte p.val :: halfBytes ((s.session p).epoch + 1)
          ++ [yesNo (s.session p).admin, (s.session p).lastEnd.code]⟩,
        (s.setSession p { s.session p with isOpen := true, epoch := (s.session p).epoch + 1, threshold := 0 }).setBox p
          (s.box p).restart) := by
  simp [openSessionBody, h]

/-- Every notice is above threshold 0 (R130, R140). -/
theorem NoticeBody.level_pos (b : NoticeBody) : 0 < b.level := by
  cases b <;> simp [NoticeBody.level]

theorem attentionDue_zero (queue : List Notice) : attentionDue queue 0 = !queue.isEmpty := by
  cases queue with
  | nil => rfl
  | cons n rest => simp [attentionDue, n.body.level_pos]

theorem NoticeBox.restart_eq (b : NoticeBox) :
    b.restart = { b with seq := 0, threshold := 0, attention := !b.queue.isEmpty } := by
  rw [← attentionDue_zero]
  rfl

/-- Settles O7. -/
theorem openSessionOpensOrReports : Obligations.OpenSessionOpensOrReports := by
  intro p q s hs x
  refine ⟨fun hclosed => ?_, fun hopen => ?_⟩
  · have body := openSessionBody_of_closed (s := s.beginEvent) (params := q.params) hclosed
    have inner := ((State.Inner.start s { sessions := [p], boxes := [p] }).setSession (c := p) (by simp)
      { x with isOpen := true, epoch := x.epoch + 1, threshold := 0 }).setBox (c := p) (by simp) (s.box p).restart
    exact ⟨_, hs.exec_quiet (k := .openSession) body rfl, inner.served_quiet p q _, by simp [x],
      by simp [NoticeBox.restart_eq]⟩
  · have body := openSessionBody_of_open (s := s.beginEvent) (params := q.params) hopen
    exact ⟨_, exec_kind .openSession p s, hs.refused body⟩

/-! ### SET_RIGHTS (R126) -/

theorem State.onlyAdmin_iff : s.onlyAdmin c = true ↔ ∀ d : Client, d ≠ c → (s.session d).admin = false := by
  simp [State.onlyAdmin, mem_clients, or_iff_not_imp_left]

/-- The right that SET_RIGHTS would take away is the last one (R126). -/
def State.LastRight (s : State) (c : Client) (v : Bool) : Prop :=
  v = false ∧ (s.session c).admin = true ∧ ∀ d : Client, d ≠ c → (s.session d).admin = false

section
variable {params : List Byte} {v : Bool} (hc : byteAt params 0 = natByte c.val) (hv : byteAt params 1 = yesNo v)
include hc hv

theorem setRightsBody_last (h : s.LastRight c v) : setRightsBody params s = refuse .lastAdmin s := by
  have last : v = false ∧ (s.session c).admin = true ∧ s.onlyAdmin c = true :=
    ⟨h.1, h.2.1, State.onlyAdmin_iff.2 h.2.2⟩
  simp only [setRightsBody, hc, hv, clientOfByte_natByte, yesNoOfByte_yesNo]
  exact if_pos last

theorem setRightsBody_sets (h : ¬ s.LastRight c v) : setRightsBody params s
    = (⟨.ok, [clientSetByte (s.setSession c { s.session c with admin := v }).admins]⟩,
        s.setSession c { s.session c with admin := v }) := by
  have more : ¬ (v = false ∧ (s.session c).admin = true ∧ s.onlyAdmin c = true) :=
    fun ⟨h1, h2, h3⟩ => h ⟨h1, h2, State.onlyAdmin_iff.1 h3⟩
  simp only [setRightsBody, hc, hv, clientOfByte_natByte, yesNoOfByte_yesNo]
  exact if_neg more

end

/-- Where the right of an admin's request is not the last one, some client holds the right afterwards. -/
theorem State.admins_ne_zero {v : Bool} (hp : (s.session p).admin = true) (h : ¬ s.LastRight c v) :
    (s.setSession c { s.session c with admin := v }).admins ≠ 0 := by
  suffices some_admin : ∃ d, ((s.setSession c { s.session c with admin := v }).session d).admin = true by
    obtain ⟨d, hd⟩ := some_admin
    intro zero
    rw [← State.admins_bit, zero] at hd
    simp at hd
  cases v with
  | true => exact ⟨c, by simp⟩
  | false =>
    by_cases hpc : p = c
    · subst hpc
      obtain ⟨d, hd, right⟩ : ∃ d, d ≠ p ∧ (s.session d).admin = true := by simpa [State.LastRight, hp] using h
      exact ⟨d, by rwa [State.setSession_session_of_ne _ _ _ _ hd]⟩
    · exact ⟨p, by rwa [State.setSession_session_of_ne _ _ _ _ hpc]⟩

/-- Settles O9: the requesting client holds the right, so that only its own removal could be the last. -/
theorem setRightsKeepsAnAdmin : Obligations.SetRightsKeepsAnAdmin := by
  intro p q s c v hs hc hv
  refine ⟨fun last => ?_, fun more => ?_⟩
  · exact ⟨_, exec_kind .setRights p s, hs.refused (setRightsBody_last (s := s.beginEvent) hc hv last)⟩
  · have body := setRightsBody_sets (s := s.beginEvent) hc hv more
    have inner := (State.Inner.start s { sessions := [c] }).setSession (c := c) (by simp) { s.session c with admin := v }
    refine ⟨_, _, hs.exec_quiet (k := .setRights) body rfl, inner.served_quiet p q _, by simp, fun d => ?_,
      State.admins_ne_zero (s := s.beginEvent) (hs.admin rfl) more⟩
    rw [State.admins_bit]
    rfl

/-! ### Claims that do not stand (R121, assumption log 1) -/

/-- A teardown claim for a CLOSED session is taken, and its event does nothing (R121). -/
theorem exec_teardownClaim_of_closed (ho : (s.port p).offer = some .teardown) (h : (s.session p).isOpen = false) :
    exec (.teardownClaim p) s = .next (s.beginEvent.endEvent.setPort p (s.port p).teardownTaken) := by
  have nothing : s.takeTeardown p = s.beginEvent.endEvent := by simp [State.takeTeardown, h]
  show execTeardownClaim p s = _
  simp only [execTeardownClaim, ho, nothing]
  rfl

theorem exec_teardownClaim_of_none (h : (s.port p).offer ≠ some .teardown) : exec (.teardownClaim p) s = .next s := by
  show execTeardownClaim p s = _
  unfold execTeardownClaim
  split
  · exact absurd ‹_› h
  · rfl

theorem State.serve_of_none {k : Kind} (h : ∀ q, s.offered p = some q → kindOfByte q.kind ≠ some k)
    (body : List Byte → State → Reply × State) : s.serve p k body = s := by
  rcases s.serve_cases p k body with ⟨same, -⟩ | ⟨q, ho, hk, -⟩
  · exact same
  · exact absurd hk (h q ho)

theorem State.takeExpiry_of_none {u : Purpose} (h : ∀ e, s.deadlines.owed = some e → e.purpose ≠ u)
    (act : Entry → State → State) : s.takeExpiry u act = s := by
  unfold State.takeExpiry
  split
  · rfl
  · rename_i e he
    exact if_neg (h e he)

theorem exec_placeAnswer_of_none (h : (s.port p).inFlight = []) : exec (.placeAnswer p) s = .next s := by
  have same : (s.port p).placeAnswer = s.port p := by simp [Port.placeAnswer, h]
  show Host.Outcome.next (s.setPort p (s.port p).placeAnswer) = _
  rw [same, State.setPort_port_eq]

/-- An event without work and a port written: the frame of a teardown claim that comes late. -/
theorem State.frame_port (s : State) (p : Client) (x : Port) :
    s.Frame (s.beginEvent.endEvent.setPort p x) { ports := [p], gate := some [] } :=
  { State.Frame.refl (m := { ports := [p] }) s rfl with
    ports := fun d hd => State.setPort_port_of_ne _ _ _ _ (by simpa using hd)
    gate := rfl }

/-- Settles O51. -/
theorem claimsThatChangeNothing : Obligations.ClaimsThatChangeNothing := by
  intro p s
  refine ⟨fun ho hclosed => ?_, exec_teardownClaim_of_none, fun k h => ?_, fun u h => ?_, exec_placeAnswer_of_none⟩
  · exact ⟨_, exec_teardownClaim_of_closed ho hclosed, s.frame_port p _, State.setPort_port_self _ p _⟩
  · rw [exec_kind, State.serve_of_none h]
  · rw [exec_purpose, State.takeExpiry_of_none h]

end Sys2Proof.Machine
end

section
/-! The commands of the notice unit (R129 to R143), and SET_THRESHOLD (R141). -/

namespace Sys2Proof.Machine

/-! ### One client's notice box -/

section
variable (b : NoticeBox) (now : Tick) (body : NoticeBody)

theorem NoticeBox.append_eq : b.append now body = { b with
    queue := b.queue ++ [⟨b.seq, now, body⟩], seq := b.seq + 1
    attention := attentionDue (b.queue ++ [⟨b.seq, now, body⟩]) b.threshold } := rfl

/-- A reserved post takes its entry out of a reservation. -/
theorem NoticeBox.post_eq : b.post now body = { b.append now body with reservations := b.reservations - 1 } := rfl

theorem NoticeBox.append_used : (b.append now body).used = b.used + 1 := by
  simp only [NoticeBox.used, NoticeBox.append_eq, List.length_append, List.length_singleton]
  omega

theorem NoticeBox.giveBack_used {b : NoticeBox} {n : Nat} (h : n ≤ b.reservations) : (b.giveBack n).used + n = b.used := by
  simp only [NoticeBox.used, NoticeBox.giveBack]
  omega

/-- So a reserved post never needs room (R131, R133). -/
theorem NoticeBox.post_used {b : NoticeBox} (now : Tick) (body : NoticeBody) (h : 1 ≤ b.reservations) :
    (b.post now body).used = b.used := by
  rw [NoticeBox.post, NoticeBox.append_used, NoticeBox.giveBack_used h]

end

section
variable {b : NoticeBox} {n : Notice} {rest : List Notice} {seq : Byte}

theorem NoticeBox.acknowledge_of_match (hq : b.queue = n :: rest) (hn : n.seq = seq) : b.acknowledge seq
    = { b with queue := rest, warnLost := false, attention := attentionDue rest b.threshold } := by
  simp only [NoticeBox.acknowledge, hq, if_pos hn]
  rfl

theorem NoticeBox.acknowledge_of_no_match (h : ∀ n rest, b.queue = n :: rest → n.seq ≠ seq) : b.acknowledge seq = b := by
  unfold NoticeBox.acknowledge
  split
  · exact if_neg (h _ _ ‹_›)
  · rfl

end

/-- Settles O44. -/
theorem noticeUnitCommands : Obligations.NoticeUnitCommands := by
  intro b now body n seq due posted
  exact ⟨b.append_eq now body, b.post_eq now body, NoticeBox.post_used now body, rfl, rfl, rfl,
    fun _ _ => NoticeBox.acknowledge_of_match, NoticeBox.acknowledge_of_no_match, rfl⟩

/-! ### SET_THRESHOLD (R141) -/

theorem setThresholdBody_of_value {s : State} {p : Client} {params : List Byte} {v : Fin 8}
    (h : byteAt params 0 = natByte v.val) : setThresholdBody p params s
      = (⟨.ok, [natByte v.val, natByte (s.session p).threshold.val]⟩,
          (s.setSession p { s.session p with threshold := v }).setBox p ((s.box p).setThreshold v)) := by
  simp only [setThresholdBody, h, thresholdOfByte_natByte]

/-- Settles O8. -/
theorem setThresholdSets : Obligations.SetThresholdSets := by
  intro p q s v hs hv
  have body := setThresholdBody_of_value (s := s.beginEvent) (p := p) hv
  have inner := ((State.Inner.start s { sessions := [p], boxes := [p] }).setSession (c := p) (by simp)
    { s.session p with threshold := v }).setBox (c := p) (by simp) ((s.box p).setThreshold v)
  refine ⟨_, hs.exec_quiet (k := .setThreshold) body rfl, inner.served_quiet p q _, ?_, ?_⟩
  · simp
  · simp only [State.answer_box, State.endEvent_box, State.setBox_box_self]
    rfl

end Sys2Proof.Machine
end

section
/-!
SUPPORT. The accounts of the notice unit (R112, R131): what each write of the engine's operations does to the reservations
that a client's ACTIVE leases and waiters promise it, and to its notice box.
-/

namespace Sys2Proof.Machine

/-! ### The reservations promised to a client (R26, R54, R131) -/

/-- The client for whose ACTIVE lease slot `i` keeps a reservation (R26). -/
def State.activeHolder (s : State) (i : LeaseSlot) : Option Client :=
  (s.lease i).bind fun l => if l.state = .active then some l.holder else none

/-- One reservation for each ACTIVE lease of the client, two for each of its waiters. -/
def State.promised (s : State) (c : Client) : Nat :=
  leaseSlots.countP (fun i => decide (s.activeHolder i = some c)) + 2 * s.waitersOf c

section
variable {s t : State} {i : LeaseSlot} {l : Lease} {c d : Client}

theorem State.activeHolder_of_none (hl : s.lease i = none) : s.activeHolder i = none := by
  simp [State.activeHolder, hl]

theorem State.activeHolder_of_lease (hl : s.lease i = some l) :
    s.activeHolder i = if l.state = .active then some l.holder else none := by
  simp [State.activeHolder, hl]

theorem State.activeHolder_congr (h : t.lease i = s.lease i) : t.activeHolder i = s.activeHolder i := by
  rw [State.activeHolder, h, State.activeHolder]

theorem State.reservationLaw_iff : s.ReservationLaw ↔ ∀ c, (s.box c).reservations = s.promised c := by
  have test : ∀ (c : Client) (i : LeaseSlot), ((s.lease i).any fun l => decide (l.holder = c) && decide (l.state = .active))
      = decide (s.activeHolder i = some c) := by
    intro c i
    cases hl : s.lease i with
    | none => simp [State.activeHolder, hl]
    | some l => by_cases ha : l.state = .active <;> simp [State.activeHolder, hl, ha]
  simp only [State.ReservationLaw, State.promised, State.waitersOf, test]

theorem State.promised_congr (leases : ∀ i, t.activeHolder i = s.activeHolder i) (waiters : ∀ j, t.waiter j = s.waiter j)
    (c : Client) : t.promised c = s.promised c := by
  simp only [State.promised, State.waitersOf, leases, waiters]

/-- One ACTIVE lease more is one reservation more for its holder. -/
theorem State.promised_lease_succ (gained : t.activeHolder i = some d) (before : s.activeHolder i = none)
    (others : ∀ k, k ≠ i → t.activeHolder k = s.activeHolder k) (waiters : ∀ j, t.waiter j = s.waiter j) (c : Client) :
    t.promised c = s.promised c + if c = d then 1 else 0 := by
  have count : leaseSlots.countP (fun k => decide (t.activeHolder k = some c))
      = leaseSlots.countP (fun k => decide (s.activeHolder k = some c)) + if c = d then 1 else 0 := by
    split
    · subst c
      exact countP_eq_succ leaseSlots_nodup (mem_leaseSlots i) (by simp [gained]) (by simp [before])
        fun k hk => by rw [others k hk]
    · rename_i hc
      rw [Nat.add_zero]
      refine List.countP_congr fun k _ => ?_
      by_cases hk : k = i
      · subst hk
        simp [gained, before, Ne.symm hc]
      · rw [others k hk]
  have same := State.waitersOf_congr waiters c
  simp only [State.promised, count, same]
  omega

/-- One waiter more is two reservations more for its client. -/
theorem State.promised_waiter_succ {j : WaiterSlot} {w : Waiter} (gained : t.waiter j = some w) (before : s.waiter j = none)
    (others : ∀ k, k ≠ j → t.waiter k = s.waiter k) (leases : ∀ i, t.activeHolder i = s.activeHolder i) (c : Client) :
    t.promised c = s.promised c + if c = w.client then 2 else 0 := by
  have count := State.waitersOf_succ gained before others c
  simp only [State.promised, leases, count]
  split <;> omega

theorem State.promised_beginLease (free : s.lease i = none) (r : ResourceId) (d : Client) (m : Mode) (u : Urgency)
    (iv : Interval) (c : Client) :
    (s.beginLease i r d m u iv).promised c = s.promised c + if c = d then 1 else 0 := by
  have lease := s.beginLease_lease i r d m u iv
  refine State.promised_lease_succ (i := i) ?_ (State.activeHolder_of_none free)
    (fun k hk => State.activeHolder_congr ((lease k).trans (if_neg hk))) (fun _ => rfl) c
  exact State.activeHolder_of_lease ((lease i).trans (if_pos rfl))

theorem State.promised_freeWaiter {j : WaiterSlot} {w : Waiter} (hw : s.waiter j = some w) (o : Outcome) (c : Client) :
    s.promised c = (s.freeWaiter j o).promised c + if c = w.client then 2 else 0 :=
  State.promised_waiter_succ hw (by simp) (fun k hk => by simp [hk])
    (fun i => (State.activeHolder_congr (s.freeWaiter_lease j o i)).symm) c

theorem State.promised_enqueue {j : WaiterSlot} (free : s.waiter j = none) (w : Waiter) (c : Client) :
    (s.enqueue j w).promised c = s.promised c + if c = w.client then 2 else 0 :=
  State.promised_waiter_succ (t := s.enqueue j w) (by simp) free (fun k hk => by simp [hk]) (fun _ => rfl) c

/-- An ACTIVE lease that is rewritten as a RECALLING one gives up its reservation. -/
theorem State.promised_recall {l' : Lease} (hl : s.lease i = some l) (ha : l.state = .active) (hr : l'.state ≠ .active)
    (c : Client) : s.promised c = (s.setLease i l').promised c + if c = l.holder then 1 else 0 := by
  refine State.promised_lease_succ (s := s.setLease i l') (t := s) (i := i) ?_ ?_
    (fun k hk => (State.activeHolder_congr ?_).symm) (fun _ => rfl) c
  · rw [State.activeHolder_of_lease hl, if_pos ha]
  · rw [State.activeHolder_of_lease (s.setLease_lease_self i l'), if_neg hr]
  · rw [s.setLease_lease, if_neg hk]

/-- A lease rewritten with its holder and its state keeps its reservation. -/
theorem State.promised_setLease {l' : Lease} (hl : s.lease i = some l) (hh : l'.holder = l.holder)
    (hs : l'.state = l.state) (c : Client) : (s.setLease i l').promised c = s.promised c := by
  refine State.promised_congr (s := s) (t := s.setLease i l') (fun k => ?_) (fun _ => rfl) c
  by_cases hk : k = i
  · subst hk
    rw [State.activeHolder_of_lease (s.setLease_lease_self k l'), State.activeHolder_of_lease hl, hh, hs]
  · exact State.activeHolder_congr (by rw [State.setLease_lease, if_neg hk])

/-- A freed slot gives up the reservation of its ACTIVE lease. -/
theorem State.promised_freeLease (hl : s.lease i = some l) (hs : s.stands i l = false) (cause : EndCause) (c : Client) :
    s.promised c = (s.freeLease i cause).promised c + if c = l.holder then (if l.state = .active then 1 else 0) else 0 := by
  have lease := State.freeLease_lease cause hl hs
  have others : ∀ k, k ≠ i → s.activeHolder k = (s.freeLease i cause).activeHolder k :=
    fun k hk => (State.activeHolder_congr ((lease k).trans (if_neg hk))).symm
  have freed : (s.freeLease i cause).activeHolder i = none := State.activeHolder_of_none ((lease i).trans (if_pos rfl))
  have before := State.activeHolder_of_lease hl
  have waiters : ∀ j, s.waiter j = (s.freeLease i cause).waiter j := fun j => (s.freeLease_waiter i cause j).symm
  by_cases ha : l.state = .active
  · rw [if_pos ha] at before ⊢
    exact State.promised_lease_succ before freed others waiters c
  · rw [if_neg ha] at before ⊢
    rw [ite_self, Nat.add_zero]
    refine State.promised_congr (fun k => ?_) waiters c
    by_cases hk : k = i
    · rw [hk, before, freed]
    · exact others k hk

end

/-! ### The accounts -/

/-- Client `c` has no lease, no waiter and no notice (R112). -/
structure State.Absent (s : State) (c : Client) : Prop where
  leases : ∀ i l, s.lease i = some l → l.holder ≠ c
  waiters : ∀ j w, s.waiter j = some w → w.client ≠ c
  queue : (s.box c).queue = []

/-- The laws of the notice unit and of closed sessions, said of the tables themselves (R112, R131). -/
structure State.Accounted (s : State) : Prop where
  reserved : ∀ c, (s.box c).reservations = s.promised c
  room : ∀ c, (s.box c).used ≤ Config.noticeEntries
  closed : ∀ c, (s.session c).isOpen = false → s.Absent c

/-- Nothing is promised to a client without leases and waiters. -/
theorem State.Absent.promised {s : State} {c : Client} (h : s.Absent c) : s.promised c = 0 := by
  have leases : leaseSlots.countP (fun i => decide (s.activeHolder i = some c)) = 0 := by
    refine List.countP_eq_zero.2 fun i _ => ?_
    cases hl : s.lease i with
    | none => simp [State.activeHolder_of_none hl]
    | some l => rw [State.activeHolder_of_lease hl]; split <;> simp [h.leases i l hl]
  have waiters : s.waitersOf c = 0 := by
    refine List.countP_eq_zero.2 fun j _ => ?_
    cases hw : s.waiter j with
    | none => simp
    | some w => simpa using h.waiters j w hw
  rw [State.promised, leases, waiters]

/-- A client whose counts are 0 has no lease and no waiter (R111). -/
theorem State.CountLaw.absent {s : State} {c : Client} (h : s.CountLaw) (leases : (s.session c).leaseCount = 0)
    (waiters : (s.session c).waiterCount = 0) (queue : (s.box c).queue = []) : s.Absent c := by
  obtain ⟨hl, hw⟩ := h c
  rw [leases, eq_comm, List.countP_eq_zero] at hl
  rw [waiters, eq_comm, List.countP_eq_zero] at hw
  refine ⟨fun i l hi => ?_, fun j w hj => ?_, queue⟩
  · simpa [hi] using hl i (mem_leaseSlots i)
  · simpa [hj] using hw j (mem_waiterSlots j)

theorem State.noticeLaws_iff {s : State} : s.NoticeLaws ↔ s.RecordLaws ∧ s.Accounted := by
  refine ⟨fun h => ⟨h.toRecordLaws, State.reservationLaw_iff.1 h.reservations, h.room, fun c hc => ?_⟩, fun ⟨records, h⟩ =>
    ⟨records, State.reservationLaw_iff.2 h.reserved, h.room, fun c hc => ?_⟩⟩
  · obtain ⟨leases, waiters, queue, -⟩ := h.closed c hc
    exact h.counts.absent leases waiters queue
  · have absent := h.closed c hc
    obtain ⟨leases, waiters⟩ := records.counts.none absent.leases absent.waiters
    exact ⟨leases, waiters, absent.queue, (h.reserved c).trans absent.promised⟩

/-- The parts of the state that the accounts speak of. -/
def State.books (s : State) :
    (LeaseSlot → Option Lease) × (WaiterSlot → Option Waiter) × (Client → Session) × (Client → NoticeBox) :=
  (s.lease, s.waiter, s.session, s.box)

theorem State.books_eq {s t : State} (lease : ∀ i, t.lease i = s.lease i) (waiter : ∀ j, t.waiter j = s.waiter j)
    (session : ∀ c, t.session c = s.session c) (box : ∀ c, t.box c = s.box c) : t.books = s.books := by
  rw [State.books, funext lease, funext waiter, funext session, funext box, State.books]

theorem State.testHead_books (s t : State) : (s.testHead t).books = t.books :=
  State.books_eq (by simp) (by simp) (by simp) (by simp)

namespace State.Accounted

variable {s t : State}

theorem of_books (h : s.Accounted) (e : t.books = s.books) : t.Accounted := by
  have lease : ∀ i, t.lease i = s.lease i := congrFun (congrArg (fun books => books.1) e)
  have waiter : ∀ j, t.waiter j = s.waiter j := congrFun (congrArg (fun books => books.2.1) e)
  have session : ∀ c, t.session c = s.session c := congrFun (congrArg (fun books => books.2.2.1) e)
  have box : ∀ c, t.box c = s.box c := congrFun (congrArg (fun books => books.2.2.2) e)
  refine ⟨fun c => ?_, fun c => ?_, fun c hc => ?_⟩
  · rw [box, State.promised_congr (fun i => State.activeHolder_congr (lease i)) waiter, h.reserved]
  · rw [box]
    exact h.room c
  · rw [session] at hc
    obtain ⟨leases, waiters, queue⟩ := h.closed c hc
    exact ⟨fun i l hl => leases i l (lease i ▸ hl), fun j w hw => waiters j w (waiter j ▸ hw), (box c).symm ▸ queue⟩

theorem isOpen_of_lease (h : s.Accounted) {i : LeaseSlot} {l : Lease} (hl : s.lease i = some l) :
    (s.session l.holder).isOpen = true :=
  Bool.of_not_eq_false fun hc => (h.closed _ hc).leases i l hl rfl

theorem isOpen_of_waiter (h : s.Accounted) {j : WaiterSlot} {w : Waiter} (hw : s.waiter j = some w) :
    (s.session w.client).isOpen = true :=
  Bool.of_not_eq_false fun hc => (h.closed _ hc).waiters j w hw rfl

/-- A waiter has its two reservations (R54). -/
theorem two_le (h : s.Accounted) {j : WaiterSlot} {w : Waiter} (hw : s.waiter j = some w) :
    2 ≤ (s.box w.client).reservations := by
  have promised := State.promised_freeWaiter hw .cancelled w.client
  rw [if_pos rfl] at promised
  have := h.reserved w.client
  omega

/-- An ACTIVE lease has its reservation (R26). -/
theorem one_le (h : s.Accounted) {i : LeaseSlot} {l : Lease} (hl : s.lease i = some l) (ha : l.state = .active) :
    1 ≤ (s.box l.holder).reservations := by
  have promised := State.promised_recall (l' := { l with state := .recalling .revoked }) hl ha nofun l.holder
  rw [if_pos rfl] at promised
  have := h.reserved l.holder
  omega

/-! ### Writes -/

/-- The account of one client with an open session moves: what its leases and waiters promise it changes with its
reservations, and no other client gains or loses anything. -/
theorem move (h : s.Accounted) {d : Client} {gained lost : Nat} (hd : (s.session d).isOpen = true)
    (isOpen : ∀ c, (t.session c).isOpen = (s.session c).isOpen) (box : ∀ c, c ≠ d → t.box c = s.box c)
    (promised : ∀ c, t.promised c + (if c = d then lost else 0) = s.promised c + if c = d then gained else 0)
    (reserved : (t.box d).reservations + lost = (s.box d).reservations + gained)
    (room : (t.box d).used ≤ Config.noticeEntries)
    (leases : ∀ i l, t.lease i = some l → l.holder ≠ d → ∃ l', s.lease i = some l' ∧ l'.holder = l.holder)
    (waiters : ∀ j w, t.waiter j = some w → w.client ≠ d → s.waiter j = some w) : t.Accounted := by
  refine ⟨fun c => ?_, fun c => ?_, fun c hc => ?_⟩
  · have now := promised c
    have before := h.reserved c
    split at now
    · subst c
      omega
    · rw [box c ‹_›]
      omega
  · by_cases hcd : c = d
    · rwa [hcd]
    · rw [box c hcd]
      exact h.room c
  · rw [isOpen] at hc
    have other : c ≠ d := fun e => by rw [e, hd] at hc; cases hc
    have absent := h.closed c hc
    refine ⟨fun i l hl hh => ?_, fun j w hw hh => ?_, (box c other).symm ▸ absent.queue⟩
    · obtain ⟨l', hl', same⟩ := leases i l hl (hh ▸ other)
      exact absent.leases i l' hl' (same.trans hh)
    · exact absent.waiters j w (waiters j w hw (hh ▸ other)) hh

theorem setSession (h : s.Accounted) {c : Client} {x : Session} (hx : x.isOpen = false → s.Absent c) :
    (s.setSession c x).Accounted := by
  refine ⟨h.reserved, h.room, fun d hd => ?_⟩
  have absent : s.Absent d := by
    rw [State.setSession_session] at hd
    split at hd
    · subst d
      exact hx hd
    · exact h.closed d hd
  exact ⟨absent.leases, absent.waiters, absent.queue⟩

/-- A notice box that keeps its reservations. -/
theorem setBox (h : s.Accounted) {c : Client} {b : NoticeBox} (reserved : b.reservations = (s.box c).reservations)
    (room : b.used ≤ Config.noticeEntries) (queue : (s.session c).isOpen = false → b.queue = []) :
    (s.setBox c b).Accounted := by
  refine ⟨fun d => ?_, fun d => ?_, fun d hd => ?_⟩
  · rw [State.setBox_box]
    split
    · subst d
      exact reserved.trans (h.reserved c)
    · exact h.reserved d
  · rw [State.setBox_box]
    split
    · exact room
    · exact h.room d
  · have absent := h.closed d hd
    refine ⟨absent.leases, absent.waiters, ?_⟩
    rw [State.setBox_box]
    split
    · subst d
      exact queue hd
    · exact absent.queue

/-- A notice box that keeps its queue and its reservations. -/
theorem setBox_same (h : s.Accounted) {c : Client} {b : NoticeBox} (reserved : b.reservations = (s.box c).reservations)
    (queue : b.queue = (s.box c).queue) : (s.setBox c b).Accounted := by
  refine h.setBox reserved ?_ fun hc => queue.trans (h.closed c hc).queue
  rw [NoticeBox.used, reserved, queue]
  exact h.room c

/-- A lease rewritten with its holder and its state. -/
theorem setLease (h : s.Accounted) {i : LeaseSlot} {l l' : Lease} (hl : s.lease i = some l) (hh : l'.holder = l.holder)
    (hs : l'.state = l.state) : (s.setLease i l').Accounted := by
  refine h.move (d := l.holder) (gained := 0) (lost := 0) (h.isOpen_of_lease hl) (fun _ => rfl) (fun _ _ => rfl)
    (fun c => by rw [State.promised_setLease hl hh hs]) rfl (h.room _) (fun k x hx hd => ?_) fun _ _ hw _ => hw
  rw [State.setLease_lease] at hx
  split at hx
  · cases hx
    exact absurd hh hd
  · exact ⟨x, hx, rfl⟩

/-- An ACTIVE lease becomes a RECALLING one, and its reservation is consumed by a notice to its holder (R74). -/
theorem recalled (h : s.Accounted) {i : LeaseSlot} {l l' : Lease} (hl : s.lease i = some l) (ha : l.state = .active)
    (hh : l'.holder = l.holder) (hr : l'.state ≠ .active) (body : NoticeBody) :
    ((s.post l.holder body).setLease i l').Accounted := by
  have one := h.one_le hl ha
  have box : ((s.post l.holder body).setLease i l').box l.holder = (s.box l.holder).post s.now body := by simp
  have promised := State.promised_recall (s := s.post l.holder body) (l' := l') hl ha hr
  refine h.move (d := l.holder) (gained := 0) (lost := 1) (h.isOpen_of_lease hl) (fun _ => rfl) (fun c hc => ?_)
    (fun c => ?_) ?_ ?_ (fun k x hx hd => ?_) fun _ _ hw _ => hw
  · simp [hc]
  · have same : (s.post l.holder body).promised c = s.promised c := rfl
    rw [← promised c, same, ite_self, Nat.add_zero]
  · rw [box, NoticeBox.post_eq]
    dsimp only
    omega
  · rw [box, NoticeBox.post_used _ _ one]
    exact h.room _
  · rw [State.setLease_lease] at hx
    split at hx
    · cases hx
      exact absurd hh hd
    · exact ⟨x, hx, rfl⟩

/-- The slot of a lease that has left its resource is freed, and the reservation of an ACTIVE one returned (R27). -/
theorem freeLease (h : s.Accounted) (i : LeaseSlot) (cause : EndCause) : (s.freeLease i cause).Accounted := by
  by_cases standing : ∀ l, s.lease i = some l → s.stands i l = true
  · rwa [State.freeLease_of_standing cause standing]
  obtain ⟨l, hl, gone⟩ : ∃ l, s.lease i = some l ∧ s.stands i l = false := by simpa using standing
  have lease := State.freeLease_lease cause hl gone
  have box := State.freeLease_box hl gone cause
  have promised := State.promised_freeLease hl gone cause
  have within := State.Within.freeLease (s := s)
    (m := { leases := [i], sessions := [l.holder], boxes := [l.holder], owners := [.lease i] })
    (State.Frame.refl s rfl) hl gone (by simp) (by simp) (by simp) (by simp) cause
  have reserved : ((s.freeLease i cause).box l.holder).reservations + (if l.state = .active then 1 else 0)
      = (s.box l.holder).reservations := by
    rw [box]
    split
    · have one := h.one_le hl ‹_›
      simp only [NoticeBox.oneReturned]
      omega
    · rfl
  refine h.move (d := l.holder) (gained := 0) (h.isOpen_of_lease hl) (fun c => ?_)
    (fun c hc => within.boxes c (by simpa using hc)) (fun c => ?_) reserved ?_ (fun k x hx _ => ?_) fun j w hw _ => ?_
  · rw [State.freeLease_session cause hl gone]
    split <;> rfl
  · rw [← promised c, ite_self, Nat.add_zero]
  · have same : ((s.freeLease i cause).box l.holder).queue = (s.box l.holder).queue := by
      rw [box]
      split <;> rfl
    have room := h.room l.holder
    simp only [NoticeBox.used, same] at room ⊢
    omega
  · exact ⟨x, State.lease_of_freeLease cause hx, rfl⟩
  · rwa [State.freeLease_waiter] at hw

/-- A waiter goes, both its reservations being consumed or returned (R56, R67, R69, R72, R73). -/
theorem freeWaiter (h : s.Accounted) {j : WaiterSlot} {w : Waiter} (hw : s.waiter j = some w) {b : NoticeBox}
    (reserved : b.reservations + 2 = (s.box w.client).reservations) (room : b.used ≤ Config.noticeEntries) (o : Outcome) :
    ((s.setBox w.client b).freeWaiter j o).Accounted := by
  have hw' : (s.setBox w.client b).waiter j = some w := hw
  have boxes := (State.freeWaiter_within hw' o).boxes
  have box : ∀ c, ((s.setBox w.client b).freeWaiter j o).box c = if c = w.client then b else s.box c :=
    fun c => (boxes c (by simp)).trans (State.setBox_box s w.client c b)
  refine h.move (d := w.client) (gained := 0) (lost := 2) (h.isOpen_of_waiter hw) (fun c => ?_)
    (fun c hc => (box c).trans (if_neg hc)) (fun c => ?_) ?_ ?_ (fun k x hx _ => ?_) fun k v hv _ => ?_
  · rw [State.freeWaiter_session _ j o hw']
    split <;> rfl
  · rw [ite_self, Nat.add_zero, ← State.promised_freeWaiter hw' o c]
    rfl
  · rwa [box, if_pos rfl]
  · rwa [box, if_pos rfl]
  · rw [State.freeWaiter_lease] at hx
    exact ⟨x, hx, rfl⟩
  · rw [State.freeWaiter_waiter] at hv
    split at hv
    · cases hv
    · exact hv

/-- A waiter goes whose two reservations are returned (R69, R73). -/
theorem returnWaiter (h : s.Accounted) {j : WaiterSlot} {w : Waiter} (hw : s.waiter j = some w) (o : Outcome) :
    ((s.giveBack w.client 2).freeWaiter j o).Accounted := by
  have two := h.two_le hw
  have used := NoticeBox.giveBack_used two
  have room := h.room w.client
  refine h.freeWaiter hw ?_ (by omega) o
  simp only [NoticeBox.giveBack]
  omega

/-- A waiter goes with a WAIT_ENDED notice, which consumes one reservation, the other being returned (R67, R72). -/
theorem notifyWaiter (h : s.Accounted) {j : WaiterSlot} {w : Waiter} (hw : s.waiter j = some w) (body : NoticeBody)
    (o : Outcome) : (((s.post w.client body).giveBack w.client 1).freeWaiter j o).Accounted := by
  have two := h.two_le hw
  have room := h.room w.client
  have posted := NoticeBox.post_used s.now body (b := s.box w.client) (by omega)
  have left : ((s.box w.client).post s.now body).reservations = (s.box w.client).reservations - 1 := by
    rw [NoticeBox.post_eq]
  have used := NoticeBox.giveBack_used (b := (s.box w.client).post s.now body) (n := 1) (by omega)
  rw [State.post_giveBack]
  refine h.freeWaiter hw ?_ ?_ o
  · simp only [NoticeBox.giveBack]
    omega
  · omega

/-- A waiter is granted: GRANTED consumes one of its reservations, and the other passes to the lease (R63). -/
theorem grantWaiter (h : s.Accounted) {j : WaiterSlot} {w : Waiter} {i : LeaseSlot} (hw : s.waiter j = some w)
    (free : s.lease i = none) : (s.grantWaiter j w i).Accounted := by
  have two := h.two_le hw
  rw [State.grantWaiter_eq]
  generalize grantInterval (s.resource w.resource).config s.now w.term = iv
  generalize NoticeBody.granted _ _ _ _ _ = body
  generalize Outcome.granted _ = o
  have begun := State.promised_beginLease (s := s.post w.client body) free w.resource w.client w.mode w.urgency iv
  have lease := (s.post w.client body).beginLease_lease i w.resource w.client w.mode w.urgency iv
  have session := (s.post w.client body).beginLease_session i w.resource w.client w.mode w.urgency iv
  have hb : ((s.post w.client body).beginLease i w.resource w.client w.mode w.urgency iv).waiter j = some w := hw
  have box : ∀ c, ((s.post w.client body).beginLease i w.resource w.client w.mode w.urgency iv).box c
      = if c = w.client then (s.box w.client).post s.now body else s.box c := (s.post_box w.client · body)
  have waiter : ∀ k, ((s.post w.client body).beginLease i w.resource w.client w.mode w.urgency iv).waiter k = s.waiter k :=
    fun _ => rfl
  generalize (s.post w.client body).beginLease i w.resource w.client w.mode w.urgency iv = u at *
  have boxes : ∀ c, (u.freeWaiter j o).box c = if c = w.client then (s.box w.client).post s.now body else s.box c :=
    fun c => ((State.freeWaiter_within hb o).boxes c (by simp)).trans (box c)
  refine h.move (d := w.client) (gained := 1) (lost := 2) (h.isOpen_of_waiter hw) (fun c => ?_)
    (fun c hc => (boxes c).trans (if_neg hc)) (fun c => ?_) ?_ ?_ (fun k x hx hd => ?_) fun k v hv _ => ?_
  · rw [State.freeWaiter_session _ j o hb, session]
    split
    · subst c
      rfl
    · rfl
  · rw [← State.promised_freeWaiter hb o c, begun c]
    rfl
  · rw [boxes, if_pos rfl, NoticeBox.post_eq]
    dsimp only
    omega
  · rw [boxes, if_pos rfl, NoticeBox.post_used _ _ (by omega)]
    exact h.room _
  · rw [State.freeWaiter_lease, lease] at hx
    split at hx
    · cases hx
      exact absurd rfl hd
    · exact ⟨x, hx, rfl⟩
  · rw [State.freeWaiter_waiter] at hv
    split at hv
    · cases hv
    · exact (waiter k).symm.trans hv

/-- An immediate grant takes a reservation for the new lease (R35). -/
theorem grant (h : s.Accounted) {c : Client} {i : LeaseSlot} (hc : (s.session c).isOpen = true) (free : s.lease i = none)
    (room : (s.box c).used < Config.noticeEntries) (r : ResourceId) (m : Mode) (u : Urgency) (iv : Interval) :
    ((s.setBox c ((s.box c).reserve 1)).beginLease i r c m u iv).Accounted := by
  have begun := State.promised_beginLease (s := s.setBox c ((s.box c).reserve 1)) free r c m u iv
  have box : ∀ d, ((s.setBox c ((s.box c).reserve 1)).beginLease i r c m u iv).box d
      = if d = c then (s.box c).reserve 1 else s.box d := (s.setBox_box c · _)
  refine h.move (d := c) (gained := 1) (lost := 0) hc (fun d => ?_) (fun d hd => (box d).trans (if_neg hd)) (fun d => ?_)
    ?_ ?_ (fun k x hx hd => ?_) fun _ _ hw _ => hw
  · rw [State.beginLease_session]
    split
    · subst d
      rfl
    · rfl
  · rw [begun d, ite_self, Nat.add_zero]
    rfl
  · rw [box, if_pos rfl]
    rfl
  · rw [box, if_pos rfl]
    simp only [NoticeBox.used, NoticeBox.reserve] at room ⊢
    omega
  · rw [State.beginLease_lease] at hx
    split at hx
    · cases hx
      exact absurd rfl hd
    · exact ⟨x, hx, rfl⟩

/-- A new waiter takes two reservations (R59). -/
theorem enqueue (h : s.Accounted) {j : WaiterSlot} {w : Waiter} (hc : (s.session w.client).isOpen = true)
    (free : s.waiter j = none) (room : (s.box w.client).used ≤ 14) : (s.enqueue j w).Accounted := by
  have box : ∀ c, (s.enqueue j w).box c = if c = w.client then (s.box w.client).reserve 2 else s.box c :=
    (s.setBox_box w.client · _)
  refine h.move (d := w.client) (gained := 2) (lost := 0) hc (fun c => ?_) (fun c hd => (box c).trans (if_neg hd))
    (fun c => ?_) ?_ ?_ (fun _ x hx _ => ⟨x, hx, rfl⟩) fun k v hv hd => ?_
  · rw [State.enqueue_session]
    split <;> rfl
  · rw [State.promised_enqueue free, ite_self, Nat.add_zero]
  · rw [box, if_pos rfl]
    rfl
  · rw [box, if_pos rfl]
    simp only [NoticeBox.used, NoticeBox.reserve, Config.noticeEntries] at room ⊢
    omega
  · rw [State.enqueue_waiter] at hv
    split at hv
    · cases hv
      exact absurd rfl hd
    · exact hv

end State.Accounted

end Sys2Proof.Machine
end

section
/-! The accounts of the notice unit through every item of work, every request, every expiry and every step (R112, R131). -/

namespace Sys2Proof.Machine

/-! ### Engine events -/

theorem State.currentWaiter_some {s : State} {e : Entry} {j : WaiterSlot} {w : Waiter}
    (h : s.currentWaiter e = some (j, w)) : s.waiter j = some w := by
  unfold State.currentWaiter at h
  split at h
  · split at h
    · rename_i hw
      split_ifs at h
      cases h
      exact hw
    · cases h
  · cases h

namespace State.Accounted

variable {s : State}

/-- Every item of work keeps the accounts. -/
theorem doWork (w : Work) (s : State) (h : s.Accounted) : (doWork w s).1.Accounted := by
  cases w with
  | pass r =>
    have walked := s.passWalk_keeps (fun _ _ _ _ hw free hu => hu.grantWaiter hw free) r h
    exact walked.of_books (t := (s.grantPass r).1) rfl
  | check r => exact h
  | recallLease i reason grace =>
    simp only [Machine.doWork, State.recallLease]
    split
    · exact h
    · rename_i l hl
      split_ifs with active cut
      · exact h.recalled hl active (by rfl) (by simp) _
      · exact of_books (s := (s.post l.holder _).setLease i _) (h.recalled hl active (by rfl) (by simp) _) rfl
      · exact h
  | endLease i cause =>
    simp only [Machine.doWork, State.endLeaseStep]
    split
    · exact h
    · rename_i l _
      split
      · have left := s.leftBy_within l cause
        exact h.of_books (t := s.leftBy l cause) (State.books_eq
          (fun k => congrArg LeaseRecord.lease (left.leases k (by simp)))
          (fun k => congrArg WaiterRecord.waiter (left.waiters k (by simp)))
          (fun c => left.sessions c (by simp)) fun c => left.boxes c (by simp))
      · exact h
  | freeSlot i cause => exact h.freeLease i cause
  | starvedFrom index => simp only [Machine.doWork]; split <;> exact h
  | endHolding r c cause => simp only [Machine.doWork]; split <;> exact h
  | removeWaiting r c o =>
    simp only [Machine.doWork, State.removeWaitingStep]
    split
    · exact h
    · rename_i j hj
      split
      · exact h
      · rename_i w hw
        have client : w.client = c := by simpa [hw] using List.find?_some hj
        subst client
        exact h.returnWaiter hw o

theorem run (h : s.Accounted) (work : List Work) : (s.run work).Accounted := s.run_keeps _ doWork work h

theorem setResource (h : s.Accounted) (r : ResourceId) (x : Resource) : (s.setResource r x).Accounted := h.of_books rfl

theorem settleOrIdle (h : s.Accounted) (r : ResourceId) : (s.settleOrIdle r).1.Accounted := by
  simp only [State.settleOrIdle]
  split
  · exact h.setResource r _
  · exact h.of_books rfl

theorem dropQueue (h : s.Accounted) (r : ResourceId) : (s.dropQueue r).Accounted := by
  unfold State.dropQueue
  generalize (s.resource r).queue = slots
  induction slots generalizing s with
  | nil => exact h
  | cons j slots ih =>
    refine ih ?_
    unfold State.dropWaiterOffline
    split
    · exact h
    · exact h.notifyWaiter ‹_› _ _

/-- The end of a session: with its waiters and leases gone, nothing is promised to the client, and its context can close
(R112, R117, R120, R143). -/
theorem endSession (h : s.Accounted) (hw : s.Working []) (c : Client) (o : Outcome) (cause : EndCause) (e : SessionEnd) :
    (s.endSession c o cause e).1.Accounted := by
  have left := hw.sessionLeft c o cause e
  have ended : ((s.removeWaiters c o).endLeases c cause).Accounted := (h.run _).run _
  have same : (s.endSession c o cause e).1 = ((s.removeWaiters c o).endLeases c cause).closeContext c e := rfl
  rw [same] at left ⊢
  generalize (s.removeWaiters c o).endLeases c cause = t at *
  have empty : (t.setBox c (t.box c).empty).Absent c :=
    ⟨left.leases, left.waiters, congrArg NoticeBox.queue (t.setBox_box_self c _)⟩
  have emptied : (t.setBox c (t.box c).empty).Accounted := by
    refine ended.setBox ?_ (Nat.zero_le _) fun _ => rfl
    exact (empty.promised.symm : 0 = t.promised c).trans (ended.reserved c).symm
  exact emptied.setSession fun _ => empty

/-! ### The requests -/

theorem acquire (h : s.Accounted) {c : Client} (hc : (s.session c).isOpen = true) (params : List Byte) :
    (acquireBody c params s).2.Accounted := by
  have queued : ∀ a full, (s.queuedPath c a full).2.Accounted := by
    intro a full
    unfold State.queuedPath
    split
    · exact h
    · rename_i j hj
      split
      · exact h
      · rename_i room
        obtain ⟨x, same⟩ := s.queued_eq c a j full
        have joined : (s.queued c a j full).Accounted := by
          rw [same]
          exact of_books (h.enqueue (w := a.waiter c s.now) hc (State.freeWaiterSlot_free hj) (Nat.le_of_not_lt room)) rfl
        dsimp only
        split
        · exact joined.run _
        · exact joined
  unfold acquireBody
  split
  · exact h
  · split
    · exact h
    · unfold State.admitted
      split
      · split
        · split_ifs
          · exact h
          · exact queued _ _
        · split_ifs with room
          · exact h.grant hc (State.freeLeaseSlot_free ‹_›) room _ _ _ _
          · exact h
      · split_ifs
        · exact h
        · exact queued _ _

theorem renew (h : s.Accounted) (c : Client) (params : List Byte) : (renewBody c params s).2.Accounted := by
  unfold renewBody
  dsimp only
  split
  · rename_i i l valid
    split_ifs
    · exact h
    · exact h
    · exact h
    · exact of_books (h.setLease (State.resolveOwnLease_valid valid).1 (by rfl) (by rfl)) rfl
  · exact h

theorem downgrade (h : s.Accounted) (c : Client) (params : List Byte) : (downgradeBody c params s).2.Accounted := by
  unfold downgradeBody
  split
  · rename_i i l valid
    split_ifs
    · exact h
    · exact h
    · exact h
    · exact (h.setLease (State.resolveOwnLease_valid valid).1 (by rfl) (by rfl)).run _
  · exact h

theorem cancel (h : s.Accounted) (c : Client) (params : List Byte) : (cancelBody c params s).2.Accounted := by
  unfold cancelBody
  split
  · rename_i j w valid
    obtain ⟨hw, rfl⟩ := State.resolveWaiter_valid valid
    exact (h.returnWaiter hw .cancelled).run _
  · exact h
  · exact h
  · exact h

theorem takeOffline (h : s.Accounted) (params : List Byte) : (takeOfflineBody params s).2.Accounted := by
  unfold takeOfflineBody
  split
  · exact h
  · rename_i r _
    have offline : (s.offlineNow r).Accounted := (h.dropQueue r).of_books rfl
    have draining : (s.beginDraining r).Accounted := (h.dropQueue r).of_books rfl
    dsimp only
    split
    · exact h
    · exact h
    · exact draining.run _
    · exact offline
    · exact offline
    · exact offline

theorem clearFence (h : s.Accounted) (params : List Byte) : (clearFenceBody params s).2.Accounted := by
  unfold clearFenceBody
  split
  · exact h
  · dsimp only
    split_ifs
    · exact (h.settleOrIdle _).run _
    · exact (h.setResource _ _).run _
    · exact h

theorem revoke (h : s.Accounted) (params : List Byte) : (revokeBody params s).2.Accounted := by
  unfold revokeBody
  split
  · split
    · exact h
    · split
      · exact h.run _
      · split
        · exact h.run _
        · exact h
  · exact h

theorem openSession (h : s.Accounted) (c : Client) (params : List Byte) : (openSessionBody c params s).2.Accounted := by
  cases hc : (s.session c).isOpen with
  | true => rwa [openSessionBody_of_open hc]
  | false =>
    rw [openSessionBody_of_closed hc]
    exact setBox_same (h.setSession (by simp)) (by rfl) (by rfl)

/-- Every request that passes the common checks keeps the accounts. -/
theorem body (h : s.Accounted) (hw : s.Working []) {k : Kind} {p : Client}
    (hp : k ≠ .openSession → (s.session p).isOpen = true) (params : List Byte) : (k.body p params s).2.Accounted := by
  cases k <;> dsimp only [Kind.body]
  case openSession => exact h.openSession p params
  case closeSession => exact h.endSession hw _ _ _ _
  case setThreshold =>
    unfold setThresholdBody
    split
    · exact h
    · refine setBox_same (h.setSession ?_) (by rfl) (by rfl)
      exact h.closed p
  case acquire => exact h.acquire (hp nofun) params
  case renew => exact h.renew p params
  case release => unfold releaseBody; split; exacts [h.run _, h]
  case downgrade => exact h.downgrade p params
  case cancel => exact h.cancel p params
  case queryLease => unfold queryLeaseBody; split <;> exact h
  case queryResource => unfold queryResourceBody; split <;> exact h
  case queryDevice => exact h
  case configureResource =>
    rcases configureResourceBody_cases params s with e | ⟨r, c, -, -, e⟩ <;> rw [e]
    · exact h
    · exact h.of_books rfl
  case setOnline =>
    unfold setOnlineBody
    split
    · exact h
    · dsimp only
      split_ifs
      · exact h.of_books rfl
      · exact h
  case takeOffline => exact h.takeOffline params
  case clearFence => exact h.clearFence params
  case revoke => exact h.revoke params
  case setTimebase =>
    unfold setTimebaseBody
    dsimp only
    split_ifs
    · exact h
    · exact h.of_books rfl
    · exact h
  case setRights =>
    unfold setRightsBody
    split
    · rename_i c _ _ _
      split_ifs
      · exact h
      · exact h.setSession (h.closed c)
    · exact h
  case evictClient =>
    unfold evictClientBody
    split
    · exact h
    · split_ifs
      · exact h.endSession hw _ _ _ _
      · exact h

/-! ### The expiries -/

/-- A WARNING takes no reservation: it is posted where a free entry is left (R134). -/
theorem warn (h : s.Accounted) {c : Client} (hc : (s.session c).isOpen = true) (body : NoticeBody) :
    (s.setBox c ((s.box c).warn s.now body)).Accounted := by
  have isOpen : (s.session c).isOpen = false → ((s.box c).warn s.now body).queue = [] := by simp [hc]
  by_cases room : (s.box c).used < Config.noticeEntries
  · refine h.setBox ?_ ?_ isOpen <;> rw [NoticeBox.warn, if_pos room]
    · rfl
    · rwa [NoticeBox.append_used]
  · refine h.setBox ?_ ?_ isOpen <;> rw [NoticeBox.warn, if_neg room]
    exact h.room c

/-- Every expiry keeps the accounts. -/
theorem act (h : s.Accounted) (e : Entry) : (e.purpose.act e s).Accounted := by
  cases e.purpose <;> dsimp only [Purpose.act]
  case warn =>
    unfold warnAct
    split
    · exact h
    · rename_i i l current
      have hl := (State.currentLease_some current).1
      have warned := h.warn (h.isOpen_of_lease hl)
      exact of_books (setLease (s := s.setBox l.holder _) (warned _) hl (by rfl) (by rfl)) rfl
  case expire => unfold expireAct; split; exacts [h, h.run _]
  case slice =>
    unfold sliceAct
    split
    · exact h
    · rename_i i l current
      dsimp only
      split_ifs
      · exact of_books (h.setLease (State.currentLease_some current).1 (by rfl) (by rfl)) rfl
      · exact h.run _
  case grace => unfold graceAct; split; exacts [h, h.run _]
  case wait =>
    unfold waitAct
    split
    · exact h
    · rename_i j w current
      have hw : s.waiter j = some w := State.currentWaiter_some current
      exact (h.notifyWaiter hw _ _).run _
  case settle =>
    unfold settleAct
    split
    · exact h
    · exact (h.setResource _ _).run _

end State.Accounted

/-! ### The commands -/

/-- An acknowledge takes at most the head of the queue, and no reservation (R137). -/
theorem NoticeBox.acknowledge_cases (b : NoticeBox) (seq : Byte) : b.acknowledge seq = b ∨
    ∃ n rest, b.queue = n :: rest ∧
      b.acknowledge seq = { b with queue := rest, warnLost := false, attention := attentionDue rest b.threshold } := by
  by_cases found : ∃ n rest, b.queue = n :: rest ∧ n.seq = seq
  · obtain ⟨n, rest, hq, hn⟩ := found
    exact .inr ⟨n, rest, hq, NoticeBox.acknowledge_of_match hq hn⟩
  · exact .inl (NoticeBox.acknowledge_of_no_match fun n rest hq hn => found ⟨n, rest, hq, hn⟩)

theorem State.Accounted.acknowledge {s : State} (h : s.Accounted) (p : Client) (seq : Byte) :
    (s.setBox p ((s.box p).acknowledge seq)).Accounted := by
  rcases (s.box p).acknowledge_cases seq with e | ⟨n, rest, hq, e⟩ <;> rw [e]
  · rwa [State.setBox_box_eq]
  · refine h.setBox (by rfl) ?_ fun hc => ?_
    · have room := h.room p
      simp only [NoticeBox.used, hq, List.length_cons] at room ⊢
      omega
    · have none := (h.closed p hc).queue
      rw [hq] at none
      cases none

/-- A transaction acknowledges a notice at most (R137, R148). -/
theorem State.transact_books (s : State) (p : Client) (received : List Byte) :
    (s.transact p received).books = s.books ∨
      ∃ seq, (s.transact p received).books = (s.setBox p ((s.box p).acknowledge seq)).books := by
  have take : ∀ answers rest, (s.take p answers rest).state.books = s.books ∨
      ∃ seq, (s.take p answers rest).state.books = (s.setBox p ((s.box p).acknowledge seq)).books := by
    intro answers rest
    unfold State.take
    split
    · exact .inl rfl
    · split
      · exact .inl rfl
      · split
        · exact .inl rfl
        · rename_i seq _
          split
          · exact .inl rfl
          · unfold State.takeNoticeStep
            dsimp only
            split
            · exact .inr ⟨seq, rfl⟩
            · exact .inl (by rw [State.setBox_box_eq])
  unfold State.transact
  split
  · exact .inl rfl
  · split
    · exact .inl rfl
    · unfold State.selected
      split_ifs
      · exact .inl rfl
      · exact take _ _
      · exact take _ _
      · exact .inl rfl

/-- All that a command but DEVICE_RESET can do to the tables, the contexts and the notice boxes: nothing beside an
acknowledge, or what the request, the expiry or the teardown that the engine takes does. -/
theorem exec_books_cases {s t : State} {c : Instr} (hc : c ≠ .deviceReset) (he : exec c s = .next t) :
    t.books = s.books ∨ (∃ p seq, t.books = (s.setBox p ((s.box p).acknowledge seq)).books) ∨
    (∃ (k : Kind) (p : Client) (q : Request), s.Serving p q k ∧ t.books = (k.body p q.params s.beginEvent).2.books) ∨
    (∃ e : Entry, t.books = (e.purpose.act e s.expiryTaken).books) ∨
    ∃ p : Client, t.books = (s.beginEvent.teardown p .portReset).1.books := by
  have leads : ∀ {u : State} {books}, (.next u : Host.Outcome State Fault Refusal) = .next t → u.books = books →
      t.books = books := fun e h => Host.Outcome.next.inj e ▸ h
  have transaction : ∀ p received, (.next (s.transact p received) : Host.Outcome State Fault Refusal) = .next t →
      t.books = s.books ∨ ∃ p seq, t.books = (s.setBox p ((s.box p).acknowledge seq)).books := fun p received e =>
    (s.transact_books p received).imp (leads e) fun ⟨seq, h⟩ => ⟨p, seq, leads e h⟩
  induction c using command_cases with
  | kinds k p =>
    rw [exec_kind] at he
    rcases s.serve_cases p k (k.body p) with ⟨e, -⟩ | ⟨q, -, -, ⟨status, -, e⟩ | ⟨serving, e⟩⟩ <;> rw [e] at he
    · exact .inl (leads he rfl)
    · exact .inl (leads he rfl)
    · exact .inr (.inr (.inl ⟨k, p, q, serving, leads he (State.testHead_books _ _)⟩))
  | expiries u =>
    rw [exec_purpose, State.takeExpiry] at he
    split at he
    · exact .inl (leads he rfl)
    · rename_i e _
      split_ifs at he with hu
      · subst hu
        exact .inr (.inr (.inr (.inl ⟨e, leads he rfl⟩)))
      · exact .inl (leads he rfl)
  | teardownClaim p =>
    simp only [exec, execTeardownClaim] at he
    split at he
    · have taken : (s.takeTeardown p).books
          = (if (s.session p).isOpen then (s.beginEvent.teardown p .portReset).1 else s.beginEvent).books :=
        State.testHead_books s _
      split at taken
      · exact .inr (.inr (.inr (.inr ⟨p, leads he taken⟩)))
      · exact .inl (leads he taken)
    · exact .inl (leads he rfl)
  | unknownKind p =>
    simp only [exec, execUnknownKind] at he
    split at he
    · exact .inl (leads he rfl)
    · split at he <;> exact .inl (leads he rfl)
  | tick => exact .inl (leads he (by split <;> rfl))
  | expiryDelivery => exact .inl (leads he rfl)
  | discardedUnserved p => exact .inl (leads he rfl)
  | put p frame => exact (transaction p _ he).imp_right .inl
  | takeAnswer p flag seq more => exact (transaction p _ he).imp_right .inl
  | takeNotice p flag seq more => exact (transaction p _ he).imp_right .inl
  | status p more => exact (transaction p _ he).imp_right .inl
  | unknownTransaction p selector more => exact (transaction p _ he).imp_right .inl
  | cutTransaction p received => exact (transaction p _ he).imp_right .inl
  | placeAnswer p => exact .inl (leads he rfl)
  | portReset p =>
    simp only [exec, execPortReset] at he
    split at he <;> exact .inl (leads he rfl)
  | pclrDeasserted p => exact .inl (leads he rfl)
  | deviceReset => exact absurd rfl hc
  | resetDeasserted =>
    simp only [exec, execResetDeasserted] at he
    split at he <;> exact .inl (leads he rfl)

/-! ### Every step -/

/-- Every command keeps the accounts. -/
theorem exec_keeps_accounted {s t : State} {c : Instr} (records : s.RecordLaws) (h : s.Accounted)
    (he : exec c s = .next t) : t.Accounted := by
  by_cases hc : c = .deviceReset
  · subst hc
    rw [← Host.Outcome.next.inj he]
    exact (State.noticeLaws_iff.1 reset_noticeLaws).2.of_books (t := s.afterReset) rfl
  have begun : s.beginEvent.Accounted := h.of_books rfl
  rcases exec_books_cases hc he with e | ⟨p, seq, e⟩ | ⟨k, p, q, serving, e⟩ | ⟨x, e⟩ | ⟨p, e⟩
  · exact h.of_books e
  · exact (h.acknowledge p seq).of_books e
  · exact (begun.body records.working serving.isOpen q.params).of_books e
  · exact (State.Accounted.act (s := s.expiryTaken) (h.of_books rfl) x).of_books e
  · exact (begun.endSession records.working p .tornDown .tornDown .portReset).of_books e

theorem State.refclk_books (s : State) : s.refclk.books = s.books := by
  unfold State.refclk
  split_ifs <;> rfl

/-- Settles O57: each operation of the engine moves one client's account, its promises along with its reservations, and a
session's context closes with nothing left to its client. -/
theorem stepKeepsNoticeLaws : Obligations.StepKeepsNoticeLaws := by
  intro s t hs hstep
  obtain ⟨records, accounted⟩ := State.noticeLaws_iff.1 hs
  refine State.noticeLaws_iff.2 ⟨stepKeepsRecordLaws s t records hstep, ?_⟩
  unfold step at hstep
  split at hstep
  · rw [← Host.Outcome.next.inj hstep]
    exact accounted.of_books s.refclk_books
  · rename_i c rest _
    exact exec_keeps_accounted (s := { s with pending := rest }) (records.of_tables rfl) (accounted.of_books rfl) hstep

end Sys2Proof.Machine
end

section
/-!
TAKE_ANSWER and TAKE_NOTICE (R136, R137, R154 to R158): the acknowledge, the peek behind it, and the bytes that go out.
-/

namespace Sys2Proof.Machine

/-! ### A transaction on a port that is not held (R148) -/

section
variable {s u : State} {p : Client} {m : Touched}

theorem State.Frame.setPort (h : s.Frame u m) (hp : p ∈ m.ports) (x : Port) : s.Frame (u.setPort p x) m :=
  { h with
    ports := fun d hd => by
      rw [State.setPort_port, if_neg (by rintro rfl; exact hd hp)]; exact h.ports d hd }

/-- The bytes sent are recorded in the port, behind what the transaction has done. -/
theorem State.recordOut_port (u : State) (p : Client) (out : List Byte) :
    (u.recordOut p out).port p = { u.port p with shiftedOut := out } := State.setPort_port_self u p _

theorem State.transact_of_free (h : s.portHeld p = false) (selector : Byte) (rest : List Byte) :
    s.transact p (selector :: rest) = (s.selected p selector rest).state.recordOut p
      (shiftOut (1 + rest.length) (s.statusOf p :: (s.selected p selector rest).out)) := by
  simp [State.transact, h, Nat.add_comm]

theorem State.selected_takeAnswer (s : State) (p : Client) (rest : List Byte) :
    s.selected p 0x61 rest = s.take p true rest := rfl

theorem State.selected_takeNotice (s : State) (p : Client) (rest : List Byte) :
    s.selected p 0x62 rest = s.take p false rest := rfl

end

/-- Fillers go out behind what the port has to send (section 9.2). -/
theorem shiftOut_cons (b : Byte) (n : Nat) : shiftOut (1 + n) [b] = b :: List.replicate n 0x00 := by
  simp [shiftOut, Nat.add_comm]

/-! ### The acknowledge and the peek -/

section
variable {s : State} {p : Client} {flag : Byte} (seq : Byte) (rest : List Byte)

/-- With a flag of a known value the step is made at the end of position 2 (R154, R157). -/
theorem State.take_of_known (h : flag = 0x00 ∨ flag = 0x01) (answers : Bool) :
    s.take p answers (flag :: seq :: rest)
      = if answers then s.takeAnswerStep p flag seq else s.takeNoticeStep p flag seq := by
  have known : ¬ (flag ≠ 0x00 ∧ flag ≠ 0x01) := by tauto
  simp only [State.take, if_neg known]

/-- With a flag of no known value the port refuses the transaction (R156). -/
theorem State.take_of_unknown (h0 : flag ≠ 0x00) (h1 : flag ≠ 0x01) (answers : Bool) :
    s.take p answers (flag :: seq :: rest) = .idle (s.linkError p) := by
  simp only [State.take, if_pos (And.intro h0 h1)]

end

/-- The port after a TAKE_ANSWER's acknowledge, if it has one (R155). -/
def Port.acknowledged (x : Port) (flag seq : Byte) : Port := if flag = 0x01 then x.acknowledge seq else x

section
variable {x : Port} {flag seq : Byte}

/-- The head answer is removed by an acknowledge of its sequence number (R155). -/
theorem Port.acknowledged_of_answer {n : Byte} {frame : List Byte} {rest : List Item}
    (hb : x.buffer = .answer n frame :: rest) : x.acknowledged flag seq
      = { x with buffer := if flag = 0x01 ∧ n = seq then rest else .answer n frame :: rest } := by
  by_cases hit : flag = 0x01 ∧ n = seq
  · obtain ⟨hf, hn⟩ := hit
    simp [Port.acknowledged, Port.acknowledge, hb, hf, hn]
  · have unchanged : x.acknowledged flag seq = x := by
      by_cases hf : flag = 0x01
      · have hn : ¬ n = seq := fun hn => hit ⟨hf, hn⟩
        simp only [Port.acknowledged, Port.acknowledge, hb, if_pos hf, if_neg hn]
      · exact if_neg hf
    rw [if_neg hit, ← hb]
    exact unchanged

theorem Port.acknowledged_of_other (hb : ∀ n frame rest, x.buffer ≠ .answer n frame :: rest) :
    x.acknowledged flag seq = x := by
  unfold Port.acknowledged Port.acknowledge
  split
  · split
    · exact absurd ‹_› (hb _ _ _)
    · rfl
  · rfl

end

/-! ### The commands -/

section
variable {s : State} {p : Client} {flag : Byte} (seq : Byte) (more : Nat)

theorem exec_takeAnswer_of_known (h : s.portHeld p = false) (hf : flag = 0x00 ∨ flag = 0x01) :
    exec (.takeAnswer p flag seq more) s = .next ((s.setPort p ((s.port p).acknowledged flag seq)).recordOut p
      (shiftOut (3 + more) (s.statusOf p :: takeOut ((s.port p).acknowledged flag seq).peek))) := by
  have length : 1 + (flag :: seq :: List.replicate more (0x00 : Byte)).length = 3 + more := by simp; omega
  show Host.Outcome.next (s.transact p (0x61 :: flag :: seq :: List.replicate more 0x00)) = _
  rw [State.transact_of_free h, State.selected_takeAnswer, State.take_of_known seq _ hf, length]
  rfl

theorem exec_takeNotice_of_known (h : s.portHeld p = false) (hf : flag = 0x00 ∨ flag = 0x01) :
    let b := if flag = 0x01 then (s.box p).acknowledge seq else s.box p
    exec (.takeNotice p flag seq more) s
      = .next ((s.setBox p b).recordOut p (shiftOut (3 + more) (s.statusOf p :: takeOut b.peek))) := by
  have length : 1 + (flag :: seq :: List.replicate more (0x00 : Byte)).length = 3 + more := by simp; omega
  show Host.Outcome.next (s.transact p (0x62 :: flag :: seq :: List.replicate more 0x00)) = _
  rw [State.transact_of_free h, State.selected_takeNotice, State.take_of_known seq _ hf, length]
  rfl

/-- A flag of no known value sets LINK_ERROR and does nothing else (R156). -/
theorem exec_take_of_unknown (h : s.portHeld p = false) (h0 : flag ≠ 0x00) (h1 : flag ≠ 0x01) {c : Instr}
    (hc : c ∈ [Instr.takeAnswer p flag seq more, .takeNotice p flag seq more]) :
    exec c s = .next ((s.linkError p).recordOut p (s.statusOf p :: List.replicate (2 + more) 0x00)) := by
  have length : (flag :: seq :: List.replicate more (0x00 : Byte)).length = 2 + more := by simp; omega
  have refused : ∀ selector answers, s.selected p selector (flag :: seq :: List.replicate more 0x00)
        = s.take p answers (flag :: seq :: List.replicate more 0x00) →
      s.transact p (selector :: flag :: seq :: List.replicate more 0x00)
        = (s.linkError p).recordOut p (s.statusOf p :: List.replicate (2 + more) 0x00) := by
    intro selector answers selected
    rw [State.transact_of_free h, selected, State.take_of_unknown seq _ h0 h1, length]
    exact congrArg _ (shiftOut_cons _ _)
  rcases List.mem_pair.1 hc with rfl | rfl
  · exact congrArg Host.Outcome.next (refused 0x61 true (s.selected_takeAnswer p _))
  · exact congrArg Host.Outcome.next (refused 0x62 false (s.selected_takeNotice p _))

end

/-- Settles O46. -/
theorem takesAcknowledgeAndPeek : Obligations.TakesAcknowledgeAndPeek := by
  intro p s flag seq more free out x b answers answer box
  have sent : ∀ copy, shiftOut (3 + more) (s.statusOf p :: takeOut copy) = out copy := by
    rintro (_ | frame) <;> rfl
  have after : x.acknowledged flag seq = { x with buffer := answers } := by
    dsimp only [answers]
    split
    · exact Port.acknowledged_of_answer ‹_›
    · exact Port.acknowledged_of_other ‹_›
  have peeked : (x.acknowledged flag seq).peek = answer := by
    rw [after]
    rfl
  have start : ∀ m : Touched, m.gate = none → s.Frame s m := fun m => State.Frame.refl s
  refine ⟨fun known => ⟨⟨_, exec_takeAnswer_of_known seq more free known, ?_, ?_⟩,
    ⟨_, exec_takeNotice_of_known seq more free known, ?_, ?_, ?_⟩⟩, fun h0 h1 c hc =>
    ⟨_, exec_take_of_unknown seq more free h0 h1 hc, ?_, ?_⟩⟩
  · exact ((start _ rfl).setPort (by simp) _).setPort (by simp) _
  · rw [State.recordOut_port, State.setPort_port_self, sent, peeked, after]
  · exact ((start _ rfl).setBox (by simp) _).setPort (by simp) _
  · exact State.setBox_box_self s p box
  · rw [State.recordOut_port, sent]
    rfl
  · exact ((start _ rfl).setPort (by simp) _).setPort (by simp) _
  · rw [State.recordOut_port, State.linkError, State.setPort_port_self]

end Sys2Proof.Machine
end

section
/-!
The client port link without the two TAKEs: PUT, STATUS, unknown, cut and held transactions (R148 to R151, R156, R158,
R161), the placing of answers (R153), the offers (R152, R162) and the port reset input (R160).
-/

namespace Sys2Proof.Machine

/-! ### A command that writes one port -/

section
variable {s : State} {p : Client} {x : Port}

theorem State.setPort_setPort (s : State) (p : Client) (x y : Port) : (s.setPort p x).setPort p y = s.setPort p y :=
  congrArg (fun ports => { s with ports := ports }) (Vector.set_set x p.isLt)

/-- A command that writes port `p` and nothing else, as the statements about the port link say it. -/
theorem exec_writes_port {c : Instr} (he : exec c s = .next (s.setPort p x)) :
    ∃ t, exec c s = .next t ∧ s.Frame t { ports := [p] } ∧ t.port p = x :=
  ⟨_, he, (State.Frame.refl s rfl).setPort (by simp) x, State.setPort_port_self s p x⟩

/-- A transaction that sends the status byte and fillers, and writes the port alone (R148). -/
theorem State.transact_of_selected {selector : Byte} {rest : List Byte} (free : s.portHeld p = false)
    (h : s.selected p selector rest = .idle (s.setPort p x)) :
    s.transact p (selector :: rest)
      = s.setPort p { x with shiftedOut := s.statusOf p :: List.replicate rest.length 0x00 } := by
  rw [State.transact_of_free free, h]
  show (s.setPort p x).setPort p { (s.setPort p x).port p with shiftedOut := shiftOut _ [s.statusOf p] } = _
  rw [State.setPort_setPort, State.setPort_port_self, shiftOut_cons]

/-- A transaction that does nothing sends the status byte and fillers. -/
theorem State.transact_of_idle {selector : Byte} {rest : List Byte} (free : s.portHeld p = false)
    (h : s.selected p selector rest = .idle s) :
    s.transact p (selector :: rest)
      = s.setPort p { s.port p with shiftedOut := s.statusOf p :: List.replicate rest.length 0x00 } :=
  State.transact_of_selected free (h.trans (by rw [State.setPort_port_eq]))

/-- A held port takes nothing in, and its SDO is high-impedance (R161, R163). -/
theorem State.transact_of_held (held : s.portHeld p = true) (received : List Byte) :
    s.transact p received = s.setPort p { s.port p with shiftedOut := [] } := if_pos held

/-- Without a whole byte nothing has happened (R148). -/
theorem State.transact_of_none (s : State) (p : Client) :
    s.transact p [] = s.setPort p { s.port p with shiftedOut := [] } := ite_self _

end

/-! ### PUT (R150, R151) -/

/-- The bytes last sent play no part in the next offer. -/
theorem Port.makeOffer_shiftedOut (x : Port) (out : List Byte) :
    ({ x with shiftedOut := out } : Port).makeOffer = { x.makeOffer with shiftedOut := out } := by
  unfold Port.makeOffer
  dsimp only
  split
  · rfl
  · split_ifs
    · rfl
    · split <;> rfl

theorem Port.judgeFrame_shiftedOut (x : Port) (out : List Byte) (q : Request) (check : Byte) :
    ({ x with shiftedOut := out } : Port).judgeFrame q check = { x.judgeFrame q check with shiftedOut := out } := by
  have full : ({ x with shiftedOut := out } : Port).full = x.full := rfl
  unfold Port.judgeFrame
  rw [full]
  split_ifs
  · rfl
  · rfl
  · exact Port.makeOffer_shiftedOut { x with buffer := x.buffer ++ [.request q false], linkError := false } out

/-- Neither do they in the judgement on a frame. -/
theorem Port.putFrame_shiftedOut (x : Port) (out : List Byte) (frame : List Byte) :
    ({ x with shiftedOut := out } : Port).putFrame frame = { x.putFrame frame with shiftedOut := out } := by
  unfold Port.putFrame
  split
  · split_ifs
    · rfl
    · rfl
    · exact x.judgeFrame_shiftedOut out _ _
  · rfl

theorem State.selected_put (s : State) (p : Client) (frame : List Byte) :
    s.selected p 0x50 frame = .idle (s.setPort p ((s.port p).putFrame frame)) := rfl

/-- The port judges the frame while the status byte and fillers go out. -/
theorem exec_put_of_free {s : State} {p : Client} (free : s.portHeld p = false) (frame : List Byte) :
    exec (.put p frame) s = .next (s.setPort p (Port.putFrame
      { s.port p with shiftedOut := s.statusOf p :: List.replicate frame.length 0x00 } frame)) := by
  rw [Port.putFrame_shiftedOut]
  exact congrArg Host.Outcome.next (State.transact_of_selected free (s.selected_put p frame))

section
variable (x : Port) {kind tag n check : Byte} {rest params more : List Byte}

theorem Port.putFrame_of_short {frame : List Byte} (h : frame.length < 3) :
    x.putFrame frame = { x with linkError := true } := by
  match frame with
  | [] | [_] | [_, _] => rfl
  | _ :: _ :: _ :: _ => exact absurd h (by simp)

theorem Port.putFrame_of_too_long (h : 16 < n.toNat) :
    x.putFrame (kind :: tag :: n :: rest) = { x with linkError := true } := if_pos h

theorem Port.putFrame_of_incomplete (h : rest.length ≤ n.toNat) :
    x.putFrame (kind :: tag :: n :: rest) = { x with linkError := true } := by
  simp only [Port.putFrame, if_pos h, ite_self]

/-- A whole frame is judged by its check byte, the one behind the parameters; what follows is not looked at. -/
theorem Port.putFrame_of_whole (room : n.toNat ≤ 16) (length : params.length = n.toNat) :
    x.putFrame (kind :: tag :: n :: (params ++ check :: more))
      = x.judgeFrame ⟨kind, tag, n, params, x.generation⟩ check := by
  have complete : ¬ (params ++ check :: more).length ≤ n.toNat := by simp [← length]
  have taken : (params ++ check :: more).take n.toNat = params := List.take_left' length
  have checked : byteAt (params ++ check :: more) n.toNat = check := by simp [byteAt, ← length]
  simp only [Port.putFrame, Config.maxParams, if_neg (Nat.not_lt.2 room), if_neg complete, taken, checked]

variable {q : Request}

theorem Port.judgeFrame_of_bad_check (h : check ≠ crc8 ([q.kind, q.tag, q.length] ++ q.params)) :
    x.judgeFrame q check = { x with linkError := true } := if_pos h.symm

theorem Port.judgeFrame_of_full (h : check = crc8 ([q.kind, q.tag, q.length] ++ q.params)) (full : 4 ≤ x.buffer.length) :
    x.judgeFrame q check = x := by
  have isFull : x.full = true := decide_eq_true full
  simp only [Port.judgeFrame, h, isFull, ne_eq, not_true, if_false, if_true]

theorem Port.judgeFrame_of_room (h : check = crc8 ([q.kind, q.tag, q.length] ++ q.params)) (room : x.buffer.length < 4) :
    x.judgeFrame q check
      = Port.makeOffer { x with buffer := x.buffer ++ [.request q false], linkError := false } := by
  have notFull : x.full = false := decide_eq_false (Nat.not_le.2 room)
  simp only [Port.judgeFrame, h, notFull, ne_eq, not_true, if_false, Bool.false_eq_true]

end

/-- Settles O45. -/
theorem putFrameIsJudged : Obligations.PutFrameIsJudged := by
  intro p s frame free x
  obtain ⟨t, next, frameKept, judged⟩ := exec_writes_port (exec_put_of_free free frame)
  refine ⟨t, next, frameKept, fun short => judged.trans (x.putFrame_of_short short), ?_⟩
  rintro kind tag n rest rfl
  refine ⟨fun long => judged.trans (x.putFrame_of_too_long long),
    fun _ cut => judged.trans (x.putFrame_of_incomplete cut), ?_⟩
  rintro params check more room length rfl
  have whole := judged.trans (x.putFrame_of_whole room length)
  exact ⟨fun bad => whole.trans (x.judgeFrame_of_bad_check bad),
    fun good full => whole.trans (x.judgeFrame_of_full good full),
    fun good space => whole.trans (x.judgeFrame_of_room good space)⟩

/-! ### STATUS (R148, R149) -/

/-- Seven flags joined below a zero bit are read back one by one (R149). -/
theorem flags_bits (f0 f1 f2 f3 f4 f5 f6 : Bool) :
    let b : Byte := (BitVec.ofBool f6 ++ BitVec.ofBool f5 ++ BitVec.ofBool f4 ++ BitVec.ofBool f3 ++ BitVec.ofBool f2
      ++ BitVec.ofBool f1 ++ BitVec.ofBool f0).setWidth 8
    b.getLsbD 0 = f0 ∧ b.getLsbD 1 = f1 ∧ b.getLsbD 2 = f2 ∧ b.getLsbD 3 = f3 ∧ b.getLsbD 4 = f4 ∧ b.getLsbD 5 = f5 ∧
      b.getLsbD 6 = f6 ∧ b.getLsbD 7 = false := by
  revert f0 f1 f2 f3 f4 f5 f6
  decide

/-- A selecting byte of neither a PUT nor a TAKE selects nothing to do (R148). -/
theorem State.selected_other (s : State) (p : Client) {selector : Byte} (put : selector ≠ 0x50) (answer : selector ≠ 0x61)
    (notice : selector ≠ 0x62) (received : List Byte) : s.selected p selector received = .idle s := by
  simp only [State.selected, if_neg put, if_neg answer, if_neg notice]

section
variable {s : State} {p : Client} (free : s.portHeld p = false)
include free

/-- Such a transaction sends the status byte and fillers, and writes nothing else (R148). -/
theorem State.transact_fillers {selector : Byte} (put : selector ≠ 0x50) (answer : selector ≠ 0x61)
    (notice : selector ≠ 0x62) (more : Nat) : s.transact p (selector :: List.replicate more 0x00)
      = s.setPort p { s.port p with shiftedOut := s.statusOf p :: List.replicate more 0x00 } := by
  rw [State.transact_of_idle free (s.selected_other p put answer notice _), List.length_replicate]

theorem exec_status_of_free (more : Nat) : exec (.status p more) s
    = .next (s.setPort p { s.port p with shiftedOut := s.statusOf p :: List.replicate more 0x00 }) :=
  congrArg Host.Outcome.next (State.transact_fillers free (by decide) (by decide) (by decide) more)

theorem exec_unknownTransaction_of_free {selector : Byte} (unknown : knownSelector selector = false) (more : Nat) :
    exec (.unknownTransaction p selector more) s
      = .next (s.setPort p { s.port p with shiftedOut := s.statusOf p :: List.replicate more 0x00 }) := by
  obtain ⟨⟨⟨put, answer⟩, notice⟩, -⟩ :
      ((selector ≠ 0x50 ∧ selector ≠ 0x61) ∧ selector ≠ 0x62) ∧ selector ≠ 0x70 := by
    simpa [knownSelector] using unknown
  exact congrArg Host.Outcome.next (State.transact_fillers free put answer notice more)

end

/-- Settles O47. -/
theorem statusByteGoesOut : Obligations.StatusByteGoesOut := by
  intro p s more free
  obtain ⟨t, next, -, port⟩ := exec_writes_port (exec_status_of_free free more)
  have first : (t.port p).shiftedOut.head? = some (s.statusOf p) := by rw [port]; rfl
  exact ⟨t, s.statusOf p, next, first, flags_bits (s.port p).answerReady _ (s.port p).full _ _ _ _⟩

/-! ### Cut and held transactions (R148, R150, R156, R158, R161) -/

/-- Behind the acknowledge sequence a TAKE looks at the number of its bytes alone (R158). -/
theorem State.transact_take_tail (s : State) (p : Client) {selector : Byte} (h : selector = 0x61 ∨ selector = 0x62)
    (flag seq : Byte) (rest : List Byte) : s.transact p (selector :: flag :: seq :: rest)
      = s.transact p (selector :: flag :: seq :: List.replicate rest.length 0x00) := by
  have same : s.selected p selector (flag :: seq :: rest)
      = s.selected p selector (flag :: seq :: List.replicate rest.length 0x00) := by
    rcases h with rfl | rfl <;> rfl
  simp only [State.transact, same, List.length_cons, List.length_replicate]

/-- A TAKE cut before its acknowledge sequence, with no flag yet or one of a known value, has done nothing (R158). -/
theorem State.selected_cut_take (s : State) (p : Client) {selector : Byte} {rest : List Byte}
    (h : selector :: rest ∈ ([[0x61], [0x61, 0x00], [0x61, 0x01], [0x62], [0x62, 0x00], [0x62, 0x01]]
      : List (List Byte))) : s.selected p selector rest = .idle s := by
  simp only [List.mem_cons, List.cons.injEq, List.not_mem_nil, or_false] at h
  rcases h with ⟨rfl, rfl⟩ | ⟨rfl, rfl⟩ | ⟨rfl, rfl⟩ | ⟨rfl, rfl⟩ | ⟨rfl, rfl⟩ | ⟨rfl, rfl⟩ <;> rfl

/-- A TAKE cut behind an acknowledge flag of no known value has been refused (R156; assumption log 23). -/
theorem State.selected_refused_take (s : State) (p : Client) {selector flag : Byte} (h0 : flag ≠ 0x00) (h1 : flag ≠ 0x01)
    (h : selector = 0x61 ∨ selector = 0x62) : s.selected p selector [flag] = .idle (s.linkError p) := by
  have refused : ∀ answers, s.take p answers [flag] = .idle (s.linkError p) := fun _ => if_pos ⟨h0, h1⟩
  rcases h with rfl | rfl
  · exact refused true
  · exact refused false

/-- On a held port each of the six transactions records that nothing was sent, and does nothing else (R161, R163). -/
theorem exec_transaction_of_held {s : State} {p : Client} (held : s.portHeld p = true) {frame : List Byte}
    {flag seq selector : Byte} {more : Nat} {c : Instr}
    (hc : c ∈ [Instr.put p frame, .takeAnswer p flag seq more, .takeNotice p flag seq more, .status p more,
      .unknownTransaction p selector more, .cutTransaction p frame]) :
    exec c s = .next (s.setPort p { s.port p with shiftedOut := [] }) := by
  have ignored : ∀ received, (.next (s.transact p received) : Host.Outcome State Fault Refusal)
      = .next (s.setPort p { s.port p with shiftedOut := [] }) := fun received =>
    congrArg Host.Outcome.next (State.transact_of_held held received)
  simp only [List.mem_cons, List.not_mem_nil, or_false] at hc
  rcases hc with rfl | rfl | rfl | rfl | rfl | rfl <;> exact ignored _

/-- Settles O48. -/
theorem cutAndHeldTransactions : Obligations.CutAndHeldTransactions := by
  intro p s
  refine ⟨fun free selector more unknown c hc => ?_, fun _ => rfl, fun flag seq rest => ?_,
    fun _ => exec_writes_port (congrArg Host.Outcome.next (s.transact_of_none p)), fun free received hr => ?_,
    fun free flag h0 h1 received hr => ?_,
    fun held _ _ _ _ _ c hc => exec_writes_port (exec_transaction_of_held held hc)⟩
  · rcases List.mem_pair.1 hc with rfl | rfl
    · exact exec_writes_port (exec_status_of_free free more)
    · exact exec_writes_port (exec_unknownTransaction_of_free free unknown more)
  · exact ⟨congrArg Host.Outcome.next (s.transact_take_tail p (.inl rfl) flag seq rest),
      congrArg Host.Outcome.next (s.transact_take_tail p (.inr rfl) flag seq rest)⟩
  · cases received with
    | nil => simp at hr
    | cons selector rest =>
      exact exec_writes_port (congrArg Host.Outcome.next (State.transact_of_idle free (s.selected_cut_take p hr)))
  · obtain ⟨selector, take, rfl⟩ : ∃ selector : Byte, (selector = 0x61 ∨ selector = 0x62) ∧ received = [selector, flag] := by
      rcases List.mem_pair.1 hr with rfl | rfl <;> simp
    have refused := State.transact_of_selected free (s.selected_refused_take p h0 h1 take)
    exact exec_writes_port (congrArg Host.Outcome.next refused)

/-! ### Placing an answer (R153) -/

/-- The oldest request in service is the first one in the buffer; the answer takes its place. -/
theorem placeInBuffer_oldest (seq : Byte) (frame : List Byte) {before : List Item} (q : Request) (after : List Item)
    (h : ∀ q', Item.request q' true ∉ before) :
    placeInBuffer seq frame (before ++ .request q true :: after) = before ++ .answer seq frame :: after := by
  induction before with
  | nil => rfl
  | cons item before ih =>
    have behind := ih fun q' hq => h q' (List.mem_cons_of_mem item hq)
    match item with
    | .answer _ _ | .request _ false => exact congrArg _ behind
    | .request q' true => exact absurd List.mem_cons_self (h q')

section
variable {x : Port} {a : AnswerInFlight} {rest : List AnswerInFlight} (h : x.inFlight = a :: rest)
include h

theorem Port.placeAnswer_of_stale (stale : a.stamp ≠ x.generation) : x.placeAnswer = { x with inFlight := rest } := by
  simp only [Port.placeAnswer, h]
  exact if_neg stale

theorem Port.placeAnswer_of_current (current : a.stamp = x.generation) : x.placeAnswer
    = { x with
        inFlight := rest
        buffer := placeInBuffer x.answerSeq (a.frame x.answerSeq) x.buffer
        answerSeq := x.answerSeq + 1 } := by
  simp only [Port.placeAnswer, h]
  exact if_pos current

end

/-- Settles O49. -/
theorem placeAnswerPlacesOrDiscards : Obligations.PlaceAnswerPlacesOrDiscards := by
  intro p s a rest flight x body
  obtain ⟨t, next, frame, port⟩ := exec_writes_port (c := .placeAnswer p) (s := s) (p := p) rfl
  refine ⟨t, next, frame, fun stale => port.trans (Port.placeAnswer_of_stale flight stale), ?_⟩
  intro current before q after split oldest
  rw [port, Port.placeAnswer_of_current flight current, split, placeInBuffer_oldest _ _ q after oldest]
  rfl

/-! ### The offers (R152, R162) -/

/-- The oldest pending request is the first one in the buffer. -/
theorem nextPending_oldest {before : List Item} (q : Request) (after : List Item)
    (h : ∀ q', Item.request q' false ∉ before) :
    nextPending (before ++ .request q false :: after) = some (q, before ++ .request q true :: after) := by
  induction before with
  | nil => rfl
  | cons item before ih =>
    have behind := ih fun q' hq => h q' (List.mem_cons_of_mem item hq)
    match item with
    | .answer _ _ | .request _ true => exact congrArg (Option.map _) behind
    | .request q' false => exact absurd List.mem_cons_self (h q')

theorem nextPending_of_none {items : List Item} (h : ∀ q, Item.request q false ∉ items) : nextPending items = none := by
  by_contra some_pending
  obtain ⟨⟨q, items'⟩, found⟩ := Option.ne_none_iff_exists'.1 some_pending
  obtain ⟨front, back, rfl, -⟩ := nextPending_split found
  exact h q (by simp)

section
variable (x : Port)

theorem Port.offerTaken_of_owed (h : 0 < x.owedTeardowns) : x.offerTaken = { x with offer := some .teardown } := if_pos h

theorem Port.offerTaken_of_pending {q : Request} {items : List Item} (h : x.owedTeardowns = 0)
    (pending : nextPending x.buffer = some (q, items)) :
    x.offerTaken = { x with buffer := items, offer := some (.request q) } := by
  simp [Port.offerTaken, Port.makeOffer, h, pending]

theorem Port.offerTaken_of_nothing (h : x.owedTeardowns = 0) (nothing : nextPending x.buffer = none) :
    x.offerTaken = { x with offer := none } := by
  simp [Port.offerTaken, Port.makeOffer, h, nothing]

theorem Port.discardStale_of_withdrawn {q : Request} (h : x.withdrawn = some q) :
    x.discardStale = { x with withdrawn := none } := by
  simp only [Port.discardStale, h]

theorem Port.discardStale_of_stale {q : Request} (none_withdrawn : x.withdrawn = none)
    (offered : x.offer = some (.request q)) (stale : q.stamp ≠ x.generation) : x.discardStale = x.offerTaken := by
  simp only [Port.discardStale, none_withdrawn, offered, if_neg stale]

end

/-- Settles O50. -/
theorem offersFollowTheirOrder : Obligations.OffersFollowTheirOrder := by
  intro x
  refine ⟨x.offerTaken_of_owed, ?_, ?_, ?_⟩
  · intro owed before q after split oldest
    exact x.offerTaken_of_pending owed (split ▸ nextPending_oldest q after oldest)
  · exact fun owed nothing => x.offerTaken_of_nothing owed (nextPending_of_none nothing)
  · rintro p s q rfl
    have exec_eq : exec (.discardedUnserved p) s = .next (s.setPort p (s.port p).discardStale) := rfl
    rw [exec_eq]
    refine ⟨fun withdrawn => ?_, fun none_withdrawn offered stale => ?_⟩
    · rw [Port.discardStale_of_withdrawn _ withdrawn]
    · rw [Port.discardStale_of_stale _ none_withdrawn offered stale]

/-! ### The port reset input (R160, R161) -/

/-- A reset always leaves a teardown claim offered: one that stood stays, and else the claim just owed is made (R160). -/
theorem Port.resetPort_eq (x : Port) : x.resetPort
    = { x with
        buffer := []
        answerSeq := 0
        linkError := false
        generation := x.generation + 1
        owedTeardowns := x.owedTeardowns + 1
        offer := some .teardown
        withdrawn := x.withdrawnOffer
        shiftedOut := [] } := by
  have kept : x.keptOffer = some .teardown ∨ x.keptOffer = none := by
    unfold Port.keptOffer
    split
    · exact .inl rfl
    · exact .inr rfl
  unfold Port.resetPort Port.makeOffer
  rcases kept with kept | kept <;> simp [kept]

theorem exec_portReset_of_assertion {s : State} {p : Client} (running : s.resetHeld = false)
    (high : (s.port p).pclr = false) :
    exec (.portReset p) s = .next (s.setPort p (Port.resetPort { s.port p with pclr := true })) := by
  have acts : exec (.portReset p) s = .next ((s.setPclr p true).setPort p ((s.setPclr p true).port p).resetPort) :=
    if_neg (by simp [running, high])
  rw [acts, State.setPclr, State.setPort_setPort, State.setPort_port_self]

theorem exec_portReset_of_no_assertion {s : State} {p : Client} (h : s.resetHeld = true ∨ (s.port p).pclr = true) :
    exec (.portReset p) s = .next (s.setPclr p true) := if_pos (by simpa using h)

/-- Settles O52. -/
theorem portResetEmptiesThePort : Obligations.PortResetEmptiesThePort := by
  intro p s x
  refine ⟨fun running high => ?_, fun h => exec_writes_port (exec_portReset_of_no_assertion h),
    exec_writes_port (c := .pclrDeasserted p) rfl⟩
  obtain ⟨t, next, frame, port⟩ := exec_writes_port (exec_portReset_of_assertion running high)
  exact ⟨t, next, frame, port.trans (Port.resetPort_eq _)⟩

end Sys2Proof.Machine
end

section
/-!
Own checks that refuse (R166 and the rules of the kinds): a parameter byte out of its field's range, and a resource, the
resources or a session in a state that the request does not allow.
-/

namespace Sys2Proof.Machine

variable {s : State} {p c : Client} {r : ResourceId} {params : List Byte}

/-! ### Parameter bytes out of range (R31, R85, R108, R123, R126, R141, R166) -/

/-- The requests on a resource, where the first byte names none. -/
theorem body_of_no_resource {k : Kind}
    (hk : k = .queryResource ∨ k = .configureResource ∨ k = .setOnline ∨ k = .takeOffline ∨ k = .clearFence)
    (h : 12 ≤ (byteAt params 0).toNat) : k.body p params s = refuse .badParam s := by
  have none_named := resourceOfByte_none h
  rcases hk with rfl | rfl | rfl | rfl | rfl <;>
    simp only [Kind.body, queryResourceBody, configureResourceBody, setOnlineBody, takeOfflineBody, clearFenceBody,
      none_named]

theorem configureResourceBody_of_no_config (h : configAt params 1 = none) :
    configureResourceBody params s = refuse .badParam s := by
  simp only [configureResourceBody, h]
  split <;> rfl

theorem setThresholdBody_of_no_value (h : 8 ≤ (byteAt params 0).toNat) :
    setThresholdBody p params s = refuse .badParam s := by
  simp only [setThresholdBody, thresholdOfByte_none h]

theorem acquireParams_none
    (h : 12 ≤ (byteAt params 0).toNat ∨ 2 ≤ (byteAt params 1).toNat ∨ 4 ≤ (byteAt params 6).toNat) :
    acquireParams params = none := by
  unfold acquireParams
  split
  next resource mode urgency =>
    rcases h with h | h | h
    · simp [resourceOfByte_none h] at resource
    · simp [modeOfByte_none h] at mode
    · simp [urgencyOfByte_none h] at urgency
  next => rfl

theorem acquireBody_of_no_params (h : acquireParams params = none) : acquireBody p params s = refuse .badParam s := by
  simp only [acquireBody, h]

theorem revokeBody_of_no_value {i : LeaseSlot} {l : Lease} (h : s.resolveLease (handleAt 32 params 0) = .valid i l)
    (hb : 2 ≤ (byteAt params 2).toNat) : revokeBody params s = refuse .badParam s := by
  simp only [revokeBody, h, yesNoOfByte_none hb]

theorem setTimebaseBody_of_range (h : (halfAt params 0).toNat = 0 ∨ 4096 < (halfAt params 0).toNat) :
    setTimebaseBody params s = refuse .badParam s := if_pos h

theorem setRightsBody_of_range (h : 4 ≤ (byteAt params 0).toNat ∨ 2 ≤ (byteAt params 1).toNat) :
    setRightsBody params s = refuse .badParam s := by
  unfold setRightsBody
  split
  next client value =>
    rcases h with h | h
    · simp [clientOfByte_none h] at client
    · simp [yesNoOfByte_none h] at value
  next => rfl

theorem evictClientBody_of_no_client (h : 4 ≤ (byteAt params 0).toNat) :
    evictClientBody params s = refuse .badParam s := by
  simp only [evictClientBody, clientOfByte_none h]

/-! ### States that the rule does not allow (R7, R17, R18, R21, R22, R108, R123) -/

section
variable (hr : byteAt params 0 = natByte r.val)
include hr

theorem configureResourceBody_of_online (hc : (configAt params 1).isSome = true)
    (hx : (s.resource r).state ≠ .offline) : configureResourceBody params s = refuse .wrongState s := by
  obtain ⟨config, hc⟩ := Option.isSome_iff_exists.1 hc
  simp only [configureResourceBody, hr, resourceOfByte_natByte, hc, if_neg hx]

theorem setOnlineBody_of_online (hx : (s.resource r).state ≠ .offline) :
    setOnlineBody params s = refuse .wrongState s := by
  simp only [setOnlineBody, hr, resourceOfByte_natByte, if_neg hx]

theorem takeOfflineBody_of_offline (hx : (s.resource r).state = .offline ∨ (s.resource r).state = .draining) :
    takeOfflineBody params s = refuse .wrongState s := by
  rcases hx with hx | hx <;> simp only [takeOfflineBody, hr, resourceOfByte_natByte, hx]

theorem clearFenceBody_of_no_fence (hx : (s.resource r).state ≠ .fenced)
    (hm : (s.resource r).state = .held → (s.resource r).fenceMark = false) :
    clearFenceBody params s = refuse .wrongState s := by
  have no_mark : ¬ ((s.resource r).state = .held ∧ (s.resource r).fenceMark = true) := by
    rintro ⟨held, mark⟩
    simp [hm held] at mark
  simp only [clearFenceBody, hr, resourceOfByte_natByte, if_neg hx, if_neg no_mark]

end

theorem setTimebaseBody_of_online (h1 : 1 ≤ (halfAt params 0).toNat) (h2 : (halfAt params 0).toNat ≤ 4096)
    (hx : (s.resource r).state ≠ .offline) : setTimebaseBody params s = refuse .wrongState s := by
  have fits : ¬ ((halfAt params 0).toNat = 0 ∨ Config.maxDivisor < (halfAt params 0).toNat) := by
    unfold Config.maxDivisor
    omega
  have online : ¬ s.allOffline = true := fun h => hx (State.allOffline_iff.1 h r)
  simp only [setTimebaseBody, if_neg fits, if_neg online]

theorem evictClientBody_of_closed (hc : byteAt params 0 = natByte c.val) (h : (s.session c).isOpen = false) :
    evictClientBody params s = refuse .wrongState s := by
  simp [evictClientBody, hc, clientOfByte_natByte, h]

/-- Settles O6: the check that each kind's rule puts on the byte or on the state refuses, and does nothing else. -/
theorem ownChecksRefuse : Obligations.OwnChecksRefuse := by
  intro k p q s hs
  refine ⟨fun bad => hs.refuses (?_ : _ = refuse .badParam s.beginEvent),
    fun wrong => hs.refuses (?_ : _ = refuse .wrongState s.beginEvent)⟩
  · cases k
    case setThreshold => exact setThresholdBody_of_no_value bad
    case acquire => exact acquireBody_of_no_params (acquireParams_none bad)
    case queryResource => exact body_of_no_resource (by simp) bad
    case configureResource =>
      exact Or.elim bad (body_of_no_resource (k := .configureResource) (by simp)) configureResourceBody_of_no_config
    case setOnline => exact body_of_no_resource (by simp) bad
    case takeOffline => exact body_of_no_resource (by simp) bad
    case clearFence => exact body_of_no_resource (by simp) bad
    case revoke =>
      obtain ⟨⟨i, l, valid⟩, range⟩ := bad
      exact revokeBody_of_no_value (s := s.beginEvent) valid range
    case setTimebase => exact setTimebaseBody_of_range bad
    case setRights => exact setRightsBody_of_range bad
    case evictClient => exact evictClientBody_of_no_client bad
    all_goals exact False.elim bad
  · cases k
    case configureResource =>
      obtain ⟨config, r, hr, online⟩ := wrong
      exact configureResourceBody_of_online (s := s.beginEvent) hr config online
    case setOnline =>
      obtain ⟨r, hr, online⟩ := wrong
      exact setOnlineBody_of_online (s := s.beginEvent) hr online
    case takeOffline =>
      obtain ⟨r, hr, offline⟩ := wrong
      exact takeOfflineBody_of_offline (s := s.beginEvent) hr offline
    case clearFence =>
      obtain ⟨r, hr, not_fenced, no_mark⟩ := wrong
      exact clearFenceBody_of_no_fence (s := s.beginEvent) hr not_fenced no_mark
    case setTimebase =>
      obtain ⟨h1, h2, r, online⟩ := wrong
      exact setTimebaseBody_of_online (s := s.beginEvent) h1 h2 online
    case evictClient =>
      obtain ⟨c, hc, closed⟩ := wrong
      exact evictClientBody_of_closed (s := s.beginEvent) hc closed
    all_goals exact False.elim wrong

end Sys2Proof.Machine
end

section
/-!
The step of the part and the two inputs from outside it: the queue of commands and the level of RESET_N. Every command
completes, and only the edges of RESET_N reach that level.
-/

namespace Sys2Proof.Machine

/-! ### What no event and no transaction reaches -/

/-- What stands outside the blocks of the part: the waiting commands and the level of RESET_N. -/
def State.inputs (s : State) : List Instr × Bool := (s.pending, s.resetHeld)

theorem keptByEvents_inputs {now : Tick} {inputs : List Instr × Bool} {anchors : List Tick} (hn : now ∈ anchors) :
    KeptByEvents anchors fun u => u.now = now ∧ u.inputs = inputs := by
  constructor
  case now => exact fun u hu => hu.1 ▸ hn
  all_goals intros; assumption

theorem State.eventSteps_inputs (s : State) : EventSteps fun _ u => u.now = s.now ∧ u.inputs = s.inputs :=
  (keptByEvents_inputs (anchors := [s.now]) (by simp)).steps

theorem State.endEvent_inputs (s : State) : s.endEvent.inputs = s.inputs := rfl

theorem State.testHead_inputs (s t : State) : (s.testHead t).inputs = t.inputs := by simp [State.inputs]

theorem State.serve_inputs (s : State) (p : Client) (k : Kind) : (s.serve p k (k.body p)).inputs = s.inputs := by
  rcases s.serve_cases p k (k.body p) with ⟨e, -⟩ | ⟨q, -, -, ⟨status, -, e⟩ | ⟨-, e⟩⟩ <;> rw [e]
  · rfl
  · obtain ⟨-, body⟩ := s.eventSteps_inputs.body k p q.params (s := s.beginEvent) ⟨rfl, rfl⟩
    exact (s.testHead_inputs _).trans body

theorem State.takeExpiry_inputs (s : State) (u : Purpose) : (s.takeExpiry u u.act).inputs = s.inputs := by
  by_cases stands : ∃ e, s.deadlines.owed = some e ∧ e.purpose = u
  · obtain ⟨e, howed, rfl⟩ := stands
    rw [State.takeExpiry_of_owed howed rfl]
    have expiries := keptByEvents_inputs (now := s.now) (inputs := s.inputs) (anchors := [s.now, e.due]) (by simp)
    exact (expiries.act (e := e) (s := s.expiryTaken) (by simp) ⟨rfl, rfl⟩).2
  · rw [State.takeExpiry_of_none fun e howed hu => stands ⟨e, howed, hu⟩]

theorem State.takeTeardown_inputs (s : State) (p : Client) : (s.takeTeardown p).inputs = s.inputs := by
  have torn := (s.eventSteps_inputs.endSession p .tornDown .tornDown .portReset (s := s.beginEvent) ⟨rfl, rfl⟩).2
  rw [State.takeTeardown, State.testHead_inputs]
  rw [State.endEvent_inputs]
  split
  · exact torn
  · rfl

/-- A transaction writes its port and, with the acknowledge of a notice, its client's notice box (R148). -/
theorem State.transact_eq {α : Type} {f : State → α} (port : ∀ s p x, f (s.setPort p x) = f s)
    (box : ∀ s c b, f (s.setBox c b) = f s) (s : State) (p : Client) (received : List Byte) :
    f (s.transact p received) = f s := by
  have take : ∀ answers rest, f (s.take p answers rest).state = f s := by
    intro answers rest
    unfold State.take
    split
    · rfl
    · split
      · exact port _ _ _
      · split
        · rfl
        · split
          · exact port _ _ _
          · exact box _ _ _
  have selected : ∀ selector rest, f (s.selected p selector rest).state = f s := by
    intro selector rest
    unfold State.selected
    split_ifs
    · exact port _ _ _
    · exact take _ _
    · exact take _ _
    · rfl
  unfold State.transact
  split
  · exact port _ _ _
  · split
    · exact port _ _ _
    · exact (port _ _ _).trans (selected _ _)

theorem State.transact_inputs (s : State) (p : Client) (received : List Byte) :
    (s.transact p received).inputs = s.inputs :=
  State.transact_eq (fun _ _ _ => rfl) (fun _ _ _ => rfl) s p received

/-! ### The commands -/

/-- Every command completes, and all but the two edges of RESET_N leave the inputs as they are. -/
theorem exec_keeps_inputs (s : State) {c : Instr} (reset : c ≠ .deviceReset) (release : c ≠ .resetDeasserted) :
    ∃ t, exec c s = .next t ∧ t.inputs = s.inputs := by
  have transaction : ∀ p received, ∃ t, Host.Outcome.next (s.transact p received)
      = (.next t : Host.Outcome State Fault Refusal) ∧ t.inputs = s.inputs :=
    fun p received => ⟨_, rfl, s.transact_inputs p received⟩
  induction c using command_cases with
  | kinds k p => exact ⟨_, exec_kind k p s, s.serve_inputs p k⟩
  | expiries u => exact ⟨_, exec_purpose u s, s.takeExpiry_inputs u⟩
  | unknownKind p =>
    simp only [exec, execUnknownKind]
    split
    · exact ⟨s, rfl, rfl⟩
    · split
      · exact ⟨_, rfl, rfl⟩
      · exact ⟨s, rfl, rfl⟩
  | teardownClaim p =>
    simp only [exec, execTeardownClaim]
    split
    · exact ⟨_, rfl, s.takeTeardown_inputs p⟩
    · exact ⟨s, rfl, rfl⟩
  | discardedUnserved p => exact ⟨_, rfl, rfl⟩
  | expiryDelivery => exact ⟨_, rfl, rfl⟩
  | tick => exact ⟨_, rfl, by split <;> rfl⟩
  | put p frame => exact transaction p _
  | takeAnswer p flag seq more => exact transaction p _
  | takeNotice p flag seq more => exact transaction p _
  | status p more => exact transaction p _
  | unknownTransaction p selector more => exact transaction p _
  | cutTransaction p received => exact transaction p _
  | placeAnswer p => exact ⟨_, rfl, rfl⟩
  | portReset p =>
    simp only [exec, execPortReset]
    split
    · exact ⟨_, rfl, rfl⟩
    · exact ⟨_, rfl, rfl⟩
  | pclrDeasserted p => exact ⟨_, rfl, rfl⟩
  | deviceReset => exact absurd rfl reset
  | resetDeasserted => exact absurd rfl release

/-- The deassertion of RESET_N completes and keeps the waiting commands. -/
theorem exec_resetDeasserted_keeps_pending (s : State) :
    ∃ t, exec .resetDeasserted s = .next t ∧ t.pending = s.pending := by
  cases h : s.resetHeld
  · exact ⟨s, exec_resetDeasserted_of_not_held h, rfl⟩
  · exact ⟨_, exec_resetDeasserted_of_held h, rfl⟩

/-- Settles O1: with a command at the front of the queue, the step's match takes that command and leaves the rest. -/
theorem stepTakesFrontCommand : Obligations.StepTakesFrontCommand :=
  fun _ _ _ => rfl

/-- Settles O2: the two edges of RESET_N by what each leaves, every other command by the inputs, which no block writes. -/
theorem everyCommandCompletes : Obligations.EveryCommandCompletes := by
  intro c s
  by_cases reset : c = .deviceReset
  · subst reset
    exact ⟨s.afterReset, exec_deviceReset s, rfl, fun edge => absurd rfl edge⟩
  by_cases release : c = .resetDeasserted
  · subst release
    obtain ⟨t, done, pending⟩ := exec_resetDeasserted_keeps_pending s
    exact ⟨t, done, pending, fun _ edge => absurd rfl edge⟩
  obtain ⟨t, done, inputs⟩ := exec_keeps_inputs s reset release
  exact ⟨t, done, congrArg Prod.fst inputs, fun _ _ => congrArg Prod.snd inputs⟩

end Sys2Proof.Machine
end
